-- ==== Sys2Proof/Word.lean ====
section
/-! DEFINITION. Words and the plain data types every other file uses.

Bit vectors hold what the manual treats as bits (register words, host addresses, packet bytes);
counts, indices and offsets are natural numbers.  `Tab` is a table that lists only the entries that
differ from a stated default (Machine/Table.lean has its operations). -/

namespace Sys2Proof

/-- One byte. -/
abbrev Byte := BitVec 8

/-- A 32-bit register word (R501). -/
abbrev Word := BitVec 32

/-- A 64-bit host address. -/
abbrev Addr := BitVec 64

/-- A sparse table: keys strictly rising, no entry equal to the default its reader names. -/
abbrev Tab (α : Type) := List (Nat × α)

/-- Fixed-point device time in 2^-32 ns: 64 bits of ns above 32 bits of fraction (R408). -/
abbrev nsPerFrame : Nat := 1000000

/-- Nanoseconds in one second. -/
abbrev nsPerSecond : Nat := 1000000000

end Sys2Proof
end

