-- ==== Sys2Proof/Syntax.lean ====
section
/-! DEFINITION. The commands and events the block takes, one constructor per row of the opcode table,
and the operand types they need. -/

namespace Sys2Proof

/-- Strap levels as they stand at a sampling instant (Table 17.3): role true is bow, slot true is slot B
first, boot true is host. -/
structure Straps where
  role : Bool
  slot : Bool
  boot : Bool
  deriving DecidableEq, Repr

/-- What starts a power-on reset (Table 4.3, R139, R519). -/
inductive PorSource where
  | vddAon
  | brownOut
  | testEn
  deriving DecidableEq, Repr

/-- What starts a clock-fail reset (R137). -/
inductive ClockFault where
  | refclk
  | pll
  deriving DecidableEq, Repr

/-- Capabilities that Tables 8.1 and 8.2 name (R267). -/
inductive CfgCap where
  | pciExpress | msix | sriov | aer | flr | ats | pri | pasid | msi | ioSpace
  deriving DecidableEq, Repr

/-- Fields of configuration space whose value the manual states, by name: it gives the capabilities no offsets (R267,
R498, Tables 8.1, 8.2 and 16.1). -/
inductive CfgField where
  | vendorId | deviceId | revisionId | classCode | subsystemVendorId | subsystemId | interruptPin
  | barKind (bar : Fin 6)
  | barSize (bar : Fin 6)
  | vfBarKind (bar : Fin 6)
  | vfBarSize (bar : Fin 6)
  | capability (c : CfgCap)
  | initialVfs | totalVfs | numVfs | vfEnable | firstVfOffset | vfStride | vfDeviceId | pageSizes
  | msixVectors | msixTableBar | msixTable | msixPba
  | busMaster | payloadSupported | maxPayload | maxRead
  | timeoutRanges | timeoutDisable | timeoutValue
  | tags8 | tags10 | linkWidth | linkSpeed | aerStatus
  deriving DecidableEq, Repr

/-- A configuration request that reaches a function (R123, R498): a read of a word or of a named field, or a write
of a field the controller acts on. -/
inductive CfgReq where
  | read (offset : Nat)
  | show (field : CfgField)
  | clearAer (bits : Word)
  | setVfEnable
  | setNumVfs (n : Nat)
  | setMaxPayload (bytes : Nat)
  | setMaxRead (bytes : Nat)
  | setCplTimeout (code : Nat)
  deriving DecidableEq, Repr

/-- A monitor condition of R132. -/
inductive MonCond where
  | warn
  | alarm
  | volt (v : Fin 8)
  deriving DecidableEq, Repr

/-- A packet as the line port receives it: the 4 header bytes of Table 5.4 (byte 0 in bits [7:0]), the
CRC-8 and CRC-32 that came with them, the payload, and whether a code violation, an EOPA or a
character count that does not match the length was seen. -/
structure RxPkt where
  hdr : BitVec 32
  crc8 : Byte
  payload : List Byte
  crc32 : BitVec 32
  framing : Bool
  deriving DecidableEq, Repr

/-- Who reached a register: the manager through BAR0, or the crew through its own window. -/
inductive Acc where
  | bar0
  | window
  deriving DecidableEq, Repr

/-- How a host read ended (R336, R323, R102). -/
inductive ReadResult where
  | data (bytes : List Byte)
  | unsupported
  | aborted
  deriving DecidableEq, Repr

/-- What the ECC of an access to an SRAM word found (R389). -/
inductive Ecc where
  | none
  | corrected
  | uncorrectable
  deriving DecidableEq, Repr

/-- A cell queue: of a work-ring transfer or of a receive port (Table 11.3). -/
inductive QueueId where
  | transfer (xfer : Fin 4096)
  | port (crew : Fin 64) (port : Fin 4)
  deriving DecidableEq, Repr

/-- The reference sources of Table 13.1. -/
inductive RefSrc where
  | refpps
  | partner
  | manager
  deriving DecidableEq, Repr

/-- A block of the tandem link as the receiver takes it (R437): its number within its channel, or one to be discarded
for a bad CRC or a code violation. -/
inductive RxBlk where
  | good (num : Fin 4096)
  | bad
  deriving DecidableEq, Repr

/-- A message of the tandem link as received: its block, and what it says. -/
structure Rcv (α : Type) where
  rx : RxBlk
  body : α
  deriving DecidableEq, Repr

/-- What a HEARTBEAT block says (R442). -/
structure Beat where
  frame : Nat
  active : Bool
  deriving DecidableEq, Repr

/-- A TIME block (R467): the partner's own, with its stamp t1 and the stamp t2 of its arrival here; or the answer to one
of ours, with the four stamps. -/
inductive TimeMsg where
  | ask (t1 t2 : Int)
  | answer (t1 t2 t3 t4 : Int)
  deriving DecidableEq, Repr

/-- A stream channel at an EPM buffer, and what the ECC of the access finds (R345, R346, R389). -/
structure EpmAccess where
  ch : Fin 32
  ecc : Ecc
  deriving DecidableEq, Repr

/-- The end of an arbiter's cycle: whether the holder's unit is done, and whether the access of a cell bank met a corrected
ECC error (R389, R395). -/
structure CycleEnd where
  unitDone : Bool
  corr : Bool
  deriving DecidableEq, Repr

/-- A port to be flushed, and whether a packet of it is being received (R384). -/
structure FlushPort where
  port : Fin 4
  receiving : Bool
  deriving DecidableEq, Repr

/-- The pairing record of R439. -/
structure PairBlock where
  bow : Bool
  bp : Nat
  rev : Nat
  digest : List Byte
  epoch : Nat
  epochValid : Bool
  hops : List Nat
  mask : Nat
  pair : Nat
  active : Bool
  deriving DecidableEq, Repr

/-- An entry of a catch record (Table 14.3), CLOSE excepted. -/
inductive CatchEntry where
  | epState (trunk addr ep : Nat) (e t halted : Bool) (outOld outNext inE tag : Nat) (acted : Bool)
      (setup : List Byte) (bseq : Nat)
  | allow (trunk addr ep : Nat) (ptype sq : Nat) (te be : Bool) (aux : Nat) (xfer : Option Nat)
      (payload : List Byte)
  | xfer (crew ring index : Nat) (cookie : Word) (length acked : Nat)
  | node (trunk addr : Nat) (entry : List Byte)
  | line (trunk hub farState lec tec : Nat) (pruned quarantined holder split : Bool) (k rate : Nat)
  | alm (trunk addr ep : Nat) (valid : Bool) (entry : List Byte)
  deriving DecidableEq, Repr

/-- The CLOSE entry of a catch record (Table 14.3). -/
structure CatchClose where
  frame : Nat
  epoch : Nat
  full : Bool
  handover : Bool
  count : Nat
  crc : BitVec 32
  deriving DecidableEq, Repr

/-- Kinds of transaction (Tables 5.3, 5.4). -/
inductive TxnKind where
  | tokenP (toggle : Bool)
  | tokenB (seq count : Nat)
  | dataP (toggle : Bool) (bytes : List Byte)
  | dataB (pkts : List (Nat × Bool × List Byte))
  | setup (tag : Nat) (bytes : List Byte)
  | hopReq (echo : Nat)
  | bcast (bseq : Nat) (bytes : List Byte)
  | claim (epoch action : Nat)
  deriving DecidableEq, Repr

/-- A relay request (R464): one transaction with its packets, toggles and sequence numbers, and the longest
packet its answer may hold. -/
structure RelayReq where
  trunk : Fin 8
  id : Nat
  urgent : Bool
  kind : TxnKind
  addr : Nat
  ep : Nat
  hub : Nat
  rs : Bool
  longest : Nat
  deriving DecidableEq, Repr

/-- A relay result (R464): the response the partner's port received, as a packet type and its fields, or
no response (ptype 0), and its data; a burst is returned packet by packet, the last one marked. -/
structure RelayRes where
  trunk : Fin 8
  id : Nat
  ptype : Nat
  sq : Nat
  aux : Nat
  te : Bool
  payload : List Byte
  final : Bool
  deriving DecidableEq, Repr

/-- What a quarantined trunk's line showed in a probe frame (R483): lock by offset 500 us, lock kept to the boundary
and LFAULT_N. -/
structure ProbeSeen where
  locked : Bool
  kept : Bool
  lfault : Bool
  deriving DecidableEq, Repr

/-- One 4-byte part of a register write: the data, the byte enables and whether it was poisoned
(R501, R502, R512). -/
structure WriteWord where
  value : Word
  enables : BitVec 4
  poisoned : Bool
  deriving DecidableEq, Repr

/-- The commands and events: one constructor per row of spec/opcode_table.json.  The table gives no
operands; each constructor takes what the row's rule says the step depends on. -/
inductive Instr where
  /-- `POWER_ON_RESET` (R115): VDD_AON rising through its threshold, a brown-out on VDD_AON, VDD_CORE or VDD_SRAM, or TEST_EN high starts a power-on reset that clears everything. -/
  | powerOnReset (src : PorSource)
  /-- `POR_DELAY_DONE` (R120): The S0 POR delay ends with PD0 on, the straps sampled and the fuse shadow loaded, and S1 begins powering PD1 and locking the root PLL. -/
  | porDelayDone (straps : Straps)
  /-- `PLL_LOCK` (R109): The root PLL locks to REFCLK, and the derived clocks and the other power domains may start. -/
  | pllLock
  /-- `CLOCK_FAIL_RESET` (R137): No REFCLK edge for 2 µs, or root PLL lock loss, starts a clock-fail reset, stops HB_OUT, holds TPULSE low and takes the PCIe link down. -/
  | clockFailReset (cause : ClockFault)
  /-- `REFCLK_RETURN` (R137): REFCLK returns after a clock-fail reset and start-up resumes at S1. -/
  | refclkReturn
  /-- `PERST_N_ASSERT` (R115): PERST_N is asserted, which starts a warm reset and switches off every domain other than PD0, PD1, PD21 and PD22. -/
  | perstNAssert
  /-- `PERST_N_DEASSERT` (R121): PERST_N is deasserted, which marks the release point at which S2 and S3 begin. -/
  | perstNDeassert (straps : Straps)
  /-- `HOT_RESET` (R121): A PCIe Hot Reset starts a warm reset, with the release point 10 µs after the condition is detected. -/
  | hotReset
  /-- `DL_DOWN` (R121): A PCIe link down (DL_Down) starts a warm reset, with the release point 10 µs after the condition is detected. -/
  | dlDown
  /-- `PWR_RESET_CTRL` (R119): A write of warm = 1 with key 0xA5 starts a warm reset, and any other write is ignored. -/
  | pwrResetCtrl (value : Word)
  /-- `RELEASE_POINT` (R121): The 10 µs delay after a Hot Reset, a DL_Down or a PWR_RESET_CTRL write expires, and S2 and S3 begin. -/
  | releasePoint (straps : Straps)
  /-- `MANAGER_RESET` (R118): An FLR of the manager function tears down every crew, stops every trunk at the next boundary and stops the heartbeat output. -/
  | managerReset
  /-- `VF_FLR` (R286): An FLR of a VF starts the crew reset of R285 for that crew, and no completions are written to host memory. -/
  | vfFlr (crew : Fin 64)
  /-- `VF_ENABLE_CLEAR` (R288): Clearing VF Enable tears down every crew that exists, without host writes. -/
  | vfEnableClear
  /-- `BUS_MASTER_ENABLE_WRITE` (R545): A change of a function's Bus Master Enable holds, or releases in their original order, that function's memory requests and MSI-X messages. -/
  | busMasterEnableWrite (fn : Fin 64) (on : Bool)
  /-- `CONFIG_REQUEST` (R123): A PCIe configuration request is answered with Configuration Request Retry Status until the end of S3, or of S5 or loader-state entry when booting from flash. -/
  | configRequest (fn : Fin 64) (req : CfgReq)
  /-- `DOMAIN_POWER_GOOD` (R114): A power domain reports power good once its SRAM is zeroed, and any stage that waits on it may continue. -/
  | domainPowerGood (d : Fin 24)
  /-- `DOMAIN_POWER_TIMEOUT` (R138): A domain that misses its power-good time stays off, sets its PWR_DOMAIN_FAULT bit and raises PWR_DOMAIN_FAULT. -/
  | domainPowerTimeout (d : Fin 24)
  /-- `SRAM_SWEEP_DONE` (R122): The S3 SRAM sweep completes and S4 begins loading from flash, or the controller enters the loader state when booting from host. -/
  | sramSweepDone (tUs : Word)
  /-- `LTSSM_DETECT` (R125): Stage S2 reaches Detect, and its completion time is recorded in PWR_STAGE_T. -/
  | ltssmDetect (tUs : Word)
  /-- `S5_COMPLETE` (R125): Stage S5 finishes applying image values, domains, user calibration and the roster seed, and Configuration Request Retry Status ends. -/
  | s5Complete (tUs : Word)
  /-- `PWR_DOMAIN_REQ` (R112): The manager driver switches PD3 to PD10, PD17 or PD23, subject to class Q, to the trunks the image enables and to the debug fuse. -/
  | pwrDomainReq (value : Word)
  /-- `CAL_USER_WRITE` (R129): A write of a calibration user value takes effect under its item's change class. -/
  | calUserWrite (k : Fin 21) (value : Word)
  /-- `CLEAR_USER` (R129): CAL_CTRL.clear_user sets every calibration user value to 0. -/
  | clearUser
  /-- `MONITOR_SAMPLE` (R131): Every 1 ms of device time the monitors sample the temperature and the eight voltage channels. -/
  | monitorSample (rawTemp : Int) (rawMv : List Int)
  /-- `MONITOR_CONDITION_CHANGE` (R132): After 4 consecutive samples beyond or back within a threshold, a monitor condition is entered or left and TEMP_WARN, TEMP_ALARM, TEMP_CLEAR, VMON_OUT_OF_RANGE or VMON_CLEAR is raised. -/
  | monitorConditionChange (cond : MonCond)
  /-- `THERMAL_TRIP` (R133): Four consecutive factory-calibrated readings at 140 °C park every line port, stop the heartbeat, raise THERMAL_TRIP and power off most domains. -/
  | thermalTrip
  /-- `VDDIO33_LOW` (R539): VDDIO_33 below 2.8 V for 1 µs makes every running line port act as if LFAULT_N were low. -/
  | vddio33Low
  /-- `PUSH_FULL` (R91): IMG_CTRL op 1 starts reading and checking a full image from host memory, if no crew exists and every trunk is stopped. -/
  | pushFull
  /-- `PUSH_DELTA` (R93): IMG_CTRL op 2 starts reading and checking a delta image that reloads, adds or removes one crew section. -/
  | pushDelta
  /-- `STORE` (R95): IMG_CTRL op 3 starts writing the last checked full push into the named flash slot. -/
  | imgStore (slotB : Bool)
  /-- `COMMIT_ROLLBACK` (R83): IMG_CTRL op 4 blows anti-rollback fuses up to the applied image's rollback_level. -/
  | commitRollback
  /-- `PROGRAM_KEY_HASH` (R84): IMG_CTRL op 5 programs the staged owner key hash into the blank key-hash fuse, only in the loader state. -/
  | programKeyHash
  /-- `IMAGE_VERIFY_DONE` (R81): The image verifier finishes checking a flash slot or a push, and either applies the image at one instant or records the reason code of the failed check. -/
  | imageVerifyDone (flash : List Byte) (tUs : Word)
  /-- `FLASH_STATUS_READY` (R95): The flash status register shows that an erase or program of a store has finished, and the store moves to its next step or ends with IMG_STORE_DONE or IMG_STORE_FAILED. -/
  | flashStatusReady (readBack : List Byte)
  /-- `FRAME_BOUNDARY` (R23): At each whole millisecond of device time every running trunk is sent an SOF, and boundary-timed actions take effect. -/
  | frameBoundary
  /-- `URGENT_PART_START` (R245): At 29τ the cox engine starts issuing urgent transactions in crew rotation, each ending its downstream occupancy by P0. -/
  | urgentPartStart (trunk : Fin 8)
  /-- `OCCURRENCE_ISSUE` (R252): An almanac occurrence reaches its offset in force and is issued, or is withheld and accounted under Table 7.5. -/
  | occurrenceIssue (ctx : Fin 16384)
  /-- `CONTROL_BULK_START` (R246): At C0 the cox engine issues the frame's HOP_REQ and computes the crews' minimum credits. -/
  | controlBulkStart (trunk : Fin 8)
  /-- `TRANSACTION_ISSUE` (R247): The cox engine issues a crew's next transaction once its credit, the line slots and R235 allow it. -/
  | transactionIssue (trunk : Fin 8)
  /-- `FRAME_GUARD` (R477): At 970 µs the guard opens and the line port settles the frame's exchanges into the LEC and TEC counters. -/
  | frameGuard
  /-- `RESPONSE_BUDGET_EXPIRED` (R159): A transaction's response budget ends without a good response, which is a line error and frees its line slot. -/
  | responseBudgetExpired (trunk : Fin 8) (slot : Fin 32)
  /-- `RETRY_EXHAUSTED` (R160): A transaction fails its fourth attempt, and the transfer completes CRC_RETRY_EXHAUSTED or the occurrence fails. -/
  | retryExhausted (trunk : Fin 8)
  /-- `RX_DATA_P` (R162): A DATA_P is received, and the line port checks its CRC and toggle and writes the EPM buffer or data stage. -/
  | rxDataP (trunk : Fin 8) (slot : Fin 32) (pkt : RxPkt)
  /-- `HUB_EVENT_SAMPLE` (R203): A hub's EP1 sample of port-event records is received, and the controller queues or handles each record. -/
  | hubEventSample (trunk : Fin 8) (slot : Fin 32) (pkt : RxPkt)
  /-- `RX_DATA_B` (R167): A bulk IN DATA_B is received and accepted in sequence order into its cell queue, or discarded. -/
  | rxDataB (trunk : Fin 8) (slot : Fin 32) (pkt : RxPkt) (final : Bool)
  /-- `RX_ACK` (R163): An ACK is received, the controller inverts T and releases the acknowledged data. -/
  | rxAck (trunk : Fin 8) (slot : Fin 32) (pkt : RxPkt)
  /-- `RX_NAK` (R160): A NAK is received, which is a good exchange that consumes no attempt. -/
  | rxNak (trunk : Fin 8) (slot : Fin 32) (pkt : RxPkt)
  /-- `RX_STALL` (R189): A STALL is received, the transfer completes STALL and the endpoint context is halted. -/
  | rxStall (trunk : Fin 8) (slot : Fin 32) (pkt : RxPkt)
  /-- `RX_BURST_ACK` (R165): A BURST_ACK is received, and acknowledged packets are released while the others are kept for resend. -/
  | rxBurstAck (trunk : Fin 8) (slot : Fin 32) (pkt : RxPkt)
  /-- `RX_HOP_RSP` (R175): A HOP_RSP is received, and the line port updates the hop-delay average and confirms a claim, a rate change or a locate step. -/
  | rxHopRsp (trunk : Fin 8) (slot : Fin 32) (pkt : RxPkt) (rttLclk : Nat)
  /-- `RX_CLAIM` (R199): A hub's CLAIM answer confirms a seal or unseal of its far side. -/
  | rxClaim (trunk : Fin 8) (slot : Fin 32) (pkt : RxPkt)
  /-- `RX_WAKE` (R223): The line port, as trunk holder, receives WAKE sets and cancels a suspend in eve or begins resume. -/
  | rxWake (trunk : Fin 8) (sets : Nat)
  /-- `RESUME_SIGNAL_END` (R223): The 1,900 µs of RESUME signalling ends and the holder sends IDLE. -/
  | resumeSignalEnd (trunk : Fin 8)
  /-- `TRK_START` (R177): TRK_CTRL.start asserts LPWR_EN and starts the 2 ms wait of the start sequence. -/
  | trkStart (trunk : Fin 8)
  /-- `LINE_POWER_CHECK` (R177): After 2 ms the line port checks LFAULT_N and either enables the receiver and driver or parks, or faults. -/
  | linePowerCheck (trunk : Fin 8) (lfaultHigh : Bool)
  /-- `TRK_STOP` (R179): TRK_CTRL.stop on a quiesced trunk arranges for the trunk to stop at the next frame boundary. -/
  | trkStop (trunk : Fin 8)
  /-- `TRK_RATE_CHG` (R181): TRK_CTRL.rate_chg starts the rate change from the next frame boundary. -/
  | trkRateChg (trunk : Fin 8)
  /-- `TRK_CLR_STAT` (R193): TRK_CTRL.clr_stat clears TRK_STAT_LINE and TRK_STAT_RESP. -/
  | trkClrStat (trunk : Fin 8)
  /-- `RATE_IDLE_RESUME` (R181): The electrical idle of a rate change ends, and IDLE resumes at the new rate. -/
  | rateIdleResume (trunk : Fin 8)
  /-- `RATE_CONFIRM_TIMEOUT` (R182): A rate-change confirmation fails after 3 attempts or 16 frames, the trunk is quarantined or pruned and LINE_RATE_INCOMPLETE is raised. -/
  | rateConfirmTimeout (trunk : Fin 8)
  /-- `LINE_LOCK_LOST` (R190): No K28.5 arrives on URX for 10 µs while the trunk runs or is parked. -/
  | lineLockLost (trunk : Fin 8)
  /-- `LINE_LOCK` (R190): Lock returns after 8 good IDLE sets, and an inverted pair is corrected. -/
  | lineLock (trunk : Fin 8) (inverted : Bool)
  /-- `LINE_FAULT` (R191): LFAULT_N low for 10 µs deasserts DTXEN, sets the TEC to 255 and quarantines the trunk. -/
  | lineFault (trunk : Fin 8)
  /-- `LFAULT_RECOVERED` (R191): LFAULT_N high for 1 ms lets the port send IDLE again, and probing begins. -/
  | lfaultRecovered (trunk : Fin 8)
  /-- `ATTACH_START` (R208): The controller starts handling a waiting ATTACH once no node of the trunk is at address 0, by enabling the port. -/
  | attachStart (trunk : Fin 8)
  /-- `ATTACH_STEP_DONE` (R208): A request of the attach sequence completes, and the controller moves to its next step or decides by Table 6.6. -/
  | attachStepDone (trunk : Fin 8)
  /-- `NODE_ATTACH_FAILED` (R210): After 3 failed attaches the controller disables the port. -/
  | nodeAttachFailed (trunk : Fin 8)
  /-- `HEAD_ANCHOR_ATTACH` (R484): After 10 ms of good IDLE during the readmission of a quarantined trunk, an ATTACH is raised for the head anchor. -/
  | headAnchorAttach (trunk : Fin 8)
  /-- `ADOPT` (R213): ROS_CMD op 1 restores a held node as if it matched and replaces the entry's identity. -/
  | rosAdopt (slot : Nat)
  /-- `ACCEPT_NEW` (R213): ROS_CMD op 2 replaces the identity, returns the entry's contexts and addresses the held node with NODE_NEW. -/
  | rosAcceptNew (slot : Nat)
  /-- `REJECT` (R213): ROS_CMD op 3 frees the held slot and leaves the port disabled. -/
  | rosReject (slot : Nat)
  /-- `DELETE` (R226): ROS_CMD op 4 deletes a roster entry that is neither attached nor held. -/
  | rosDelete (entry : Nat)
  /-- `SUSPEND` (R216): ROS_CMD op 5 suspends a port, far side or trunk, which stops traffic to the targets and opens the eve window. -/
  | rosSuspend (trunk : Fin 8) (hub : Nat) (port : Nat)
  /-- `RESUME` (R223): ROS_CMD op 6 resumes a suspended target from the first boundary after its status stage. -/
  | rosResume (trunk : Fin 8) (hub : Nat) (port : Nat)
  /-- `RESET_PORT` (R202): ROS_CMD op 7 sends RESET_PORT to a hub. -/
  | rosResetPort (trunk : Fin 8) (hub : Nat) (port : Nat)
  /-- `ADD` (R239): COX_ALM_CMD op 1 starts adding an almanac entry under the budget and first-fit placement. -/
  | almAdd (ctx : Fin 16384) (ilog2 phase : Nat)
  /-- `REMOVE` (R243): COX_ALM_CMD op 2 starts removing an almanac entry from the next frame boundary. -/
  | almRemove (ctx : Fin 16384)
  /-- `ALM_READ` (R262): COX_ALM_CMD op 3 reads an almanac entry into COX_ALM_ENTRY0 to 3. -/
  | almRead (ctx : Fin 16384)
  /-- `ALM_OP_COMPLETE` (R243): An almanac add or remove completes with a reason code, and takes effect at the following frame boundary. -/
  | almOpComplete
  /-- `CREATE` (R272): CRW_CMD op 1 takes an ABSENT crew through CREATING to RUNNING. -/
  | crwCreate (crew : Fin 64)
  /-- `TEAR_DOWN` (R287): CRW_CMD op 2 resets the crew, revokes its grants and leaves it ABSENT. -/
  | crwTearDown (crew : Fin 64)
  /-- `CRW_RESET` (R285): CRW_CMD op 3 resets one crew, writing its completions. -/
  | crwReset (crew : Fin 64)
  /-- `GRANT_ENDPOINT` (R278): CRW_CMD op 4 binds an endpoint context of a node to a crew. -/
  | grantEndpoint (crew : Fin 64)
  /-- `REVOKE_ENDPOINT` (R280): CRW_CMD op 5 stops submissions to a context and aborts its waiting transfers, with the removal following later. -/
  | revokeEndpoint (crew : Fin 64)
  /-- `SET_EXTRA_QUOTA` (R273): CRW_CMD op 6 replaces a crew's extra grant of transfer contexts, cells or cell queues. -/
  | setExtraQuota (crew : Fin 64)
  /-- `SET_SHARE` (R275): CRW_CMD op 7 writes a crew's bulk_min and bulk_weight as class F. -/
  | setShare (crew : Fin 64)
  /-- `GRANT_URGENT_BROADCAST` (R283): CRW_CMD op 8 gives a crew urgent-broadcast permission, which voids isolation. -/
  | grantUrgentBroadcast (crew : Fin 64)
  /-- `WITHDRAW_URGENT_BROADCAST` (R284): CRW_CMD op 9 withdraws the permission and aborts the crew's queued BCASTs. -/
  | withdrawUrgentBroadcast (crew : Fin 64)
  /-- `CREW_CMD_COMPLETE` (R271): A crew command that took time ends once its transactions have ended, and writes its reason code. -/
  | crewCmdComplete
  /-- `CREW_CMD_TIMEOUT` (R296): A Reset or Tear down whose line-slot transactions have not ended within 5 ms ends them at once. -/
  | crewCmdTimeout
  /-- `MBX_UP_DB` (R289): A crew writes its up doorbell, and the message is snapshot for the manager or dropped. -/
  | mbxUpDb (crew : Fin 64) (len seq : Nat)
  /-- `MBX_DN_DB` (R289): The manager writes the down doorbell of a crew, and the message is snapshot for the crew or dropped. -/
  | mbxDnDb (crew : Fin 64) (len seq : Nat)
  /-- `MBX_UP_ACK` (R290): The manager acknowledges a pending up message, which clears pending and raises MBX_ACKED. -/
  | mbxUpAck (crew : Fin 64) (seq : Nat)
  /-- `MBX_DN_ACK` (R290): The crew acknowledges a pending down message. -/
  | mbxDnAck (crew : Fin 64) (seq : Nat)
  /-- `RNG_ENABLE` (R300): RNG_CTRL.enable takes a DISABLED ring to RUNNING with its counts at 0. -/
  | rngEnable (acc : Acc) (crew : Fin 64) (ring : Fin 8)
  /-- `RNG_SHUTDOWN` (R325): RNG_CTRL.shutdown takes a ring to STOPPING and aborts its outstanding entries. -/
  | rngShutdown (acc : Acc) (crew : Fin 64) (ring : Fin 8)
  /-- `RNG_RESTART` (R323): RNG_CTRL.restart takes a HALTED ring back to RUNNING at CI. -/
  | rngRestart (acc : Acc) (crew : Fin 64) (ring : Fin 8)
  /-- `CQ_ENABLE` (R301): CQ_CTRL.enable enables a completion queue with HEAD and TAIL at 0. -/
  | cqEnable (acc : Acc) (crew : Fin 64) (cq : Fin 8)
  /-- `CQ_DISABLE` (R301): CQ_CTRL.disable disables a completion queue that no active ring names. -/
  | cqDisable (acc : Acc) (crew : Fin 64) (cq : Fin 8)
  /-- `RNG_PI_WRITE` (R303): A doorbell write of the producer count posts entries, or is ignored as invalid. -/
  | rngPiWrite (acc : Acc) (crew : Fin 64) (ring : Fin 8) (value : Word)
  /-- `CQ_HEAD_WRITE` (R304): A write of CQ_HEAD returns completion-queue space. -/
  | cqHeadWrite (acc : Acc) (crew : Fin 64) (cq : Fin 8) (value : Word)
  /-- `FETCH_TURN` (R312): The fetcher takes the entry at CI of the next ring in rotation, giving it a transfer context or completing it at once. -/
  | fetchTurn
  /-- `CHAIN_LIMIT` (R311): The chain walk reads 256 links without an end, the transfer completes CHAIN_LIMIT and the ring halts. -/
  | chainLimit (xfer : Fin 4096)
  /-- `READ_COMPLETION` (R336): A completion for a host read arrives, delivering descriptor, chain, payload, flushing or push data, or reporting an error. -/
  | readCompletion (tag : Fin 64) (res : ReadResult)
  /-- `COMPLETION_TIMEOUT` (R544): A non-posted request's completion timeout expires, which ends it as HOST_MEM_ERR or HOST_READ. -/
  | completionTimeout (tag : Fin 64)
  /-- `NAK_TIMEOUT` (R316): At the end of the m-th frame in which the endpoint answered only NAK, the transfer completes NAK_TIMEOUT. -/
  | nakTimeout (xfer : Fin 4096)
  /-- `COMPLETION_RECORD_WRITE` (R318): A completion record is written once every earlier entry of the ring has completed and the CQ has room. -/
  | completionRecordWrite (crew : Fin 64) (ring : Fin 8)
  /-- `WORK_RING_CHANNEL_TAKE` (R339): A free work-ring channel takes the waiting transfer of its crew that took its context first. -/
  | workRingChannelTake (ch : Fin 32)
  /-- `ARB_DECISION` (R395): In each cycle each arbiter decides which requester gets the next unit, under levels, pointers, tenure and pre-emption. -/
  | arbDecision (arb : Fin 3) (bank : Fin 4) (reqs : List Nat) (fin : CycleEnd)
  /-- `ARB_HOLDER_CUT` (R400): A holder that completes no unit for hold_limit cycles is cut off and masked. -/
  | arbHolderCut (arb : Fin 3) (bank : Fin 4)
  /-- `ARB_STARVED` (R403): A requester seen by starve_limit decisions without a grant is flagged as starved. -/
  | arbStarved (arb : Fin 3) (req : Nat)
  /-- `ARB_CUT_CLEAR` (R402): Writing 1 to ARB_REQ.cut unmasks a cut requester. -/
  | arbCutClear (arb : Fin 3) (req : Nat)
  /-- `ARB_GRANTS_READ` (R503): A read of ARB_GRANTS returns the count and clears it. -/
  | arbGrantsRead (arb : Fin 3) (req : Nat)
  /-- `DMA_TAGS_READ` (R503): A read of DMA_TAGS restarts the peak field. -/
  | dmaTagsRead
  /-- `DCH_ENABLE` (R342): DCH_CTRL.enable takes a DISABLED stream channel to RUNNING. -/
  | dchEnable (acc : Acc) (crew : Fin 64) (ch : Fin 32)
  /-- `DCH_STOP` (R357): DCH_CTRL.stop takes a channel to STOPPING and aborts its outstanding descriptors. -/
  | dchStop (acc : Acc) (crew : Fin 64) (ch : Fin 32)
  /-- `DCH_RESTART` (R354): DCH_CTRL.restart returns a HALTED channel to RUNNING at CI. -/
  | dchRestart (acc : Acc) (crew : Fin 64) (ch : Fin 32)
  /-- `DCH_PI_WRITE` (R358): A write of DCH_PI posts stream descriptors, or is ignored as invalid. -/
  | dchPiWrite (acc : Acc) (crew : Fin 64) (ch : Fin 32) (value : Word)
  /-- `DCH_CQ_HEAD_WRITE` (R350): A write of DCH_CQ_HEAD returns space in a stream completion queue. -/
  | dchCqHeadWrite (acc : Acc) (crew : Fin 64) (ch : Fin 32) (value : Word)
  /-- `DMA_BIND` (R344): A bind command binds a periodic IN context to an IN stream channel of the same owner. -/
  | dmaBind (crew : Fin 64) (ctx : Fin 16384) (ch : Fin 32)
  /-- `DMA_UNBIND` (R344): An unbind command ends a context's binding. -/
  | dmaUnbind (crew : Fin 64) (ctx : Fin 16384) (ch : Fin 32)
  /-- `CAPTURE` (R345): A CAPTURE descriptor copies the first pending unconsumed sample of a bound context into the circular buffer and consumes it. -/
  | dmaCapture (acc : EpmAccess)
  /-- `READ` (R346): A READ descriptor copies a context's current sample without consuming it. -/
  | dmaRead (acc : EpmAccess)
  /-- `STAGE` (R347): A STAGE descriptor copies host data into a periodic OUT context's EPM buffer. -/
  | dmaStage (ch : Fin 32)
  /-- `STREAM_RECORD_WRITE` (R350): In record mode a stream completion record is appended once the channel's completion queue has room. -/
  | streamRecordWrite (ch : Fin 32)
  /-- `RXP_OPEN` (R378): RXP_CTRL.open binds a bulk IN context to a receive port with a standing transfer. -/
  | rxpOpen (crew : Fin 64) (port : Fin 4)
  /-- `RXP_CLOSE` (R385): RXP_CTRL.close takes a port to CLOSING, and the port reads CLOSED once its token has ended. -/
  | rxpClose (crew : Fin 64) (port : Fin 4)
  /-- `RXP_FLUSH` (R384): RXP_CTRL.flush empties the port's queue at once. -/
  | rxpFlush (crew : Fin 64) (port : FlushPort)
  /-- `RXP_POP` (R382): An aligned 8-byte read of RXP_POP returns the next word of the oldest item, or waits for one. -/
  | rxpPop (crew : Fin 64) (port : Fin 4)
  /-- `POP_TIMEOUT` (R383): A waiting pop returns with valid clear after 32 µs, and empty_pops counts 1. -/
  | popTimeout (crew : Fin 64) (port : Fin 4)
  /-- `RXP_THRESHOLD_WRITE` (R381): A write of the port threshold takes the current level as the comparison state, without a signal. -/
  | rxpThresholdWrite (crew : Fin 64) (port : Fin 4) (value : Nat)
  /-- `CELL_QUEUE_RESET` (R388): The sweep of a queue reset completes, the queue is empty, and its transfer is aborted or its port continues. -/
  | cellQueueReset (queue : QueueId) (ecc : Bool)
  /-- `TIME_SECOND` (R413): At each whole second of device time the selected source's sample drives the loop, and a pending step, set or label is applied. -/
  | timeSecond
  /-- `REFPPS_EDGE` (R411): A rising REFPPS edge is timestamped and judged good or rejected. -/
  | refppsEdge (stamp : Int)
  /-- `REF_VALIDITY_TIMEOUT` (R410): A reference source loses validity, by 1.5 s without a good REFPPS edge or 4 s without a manager sample, and TIME_REF_LOST is raised. -/
  | refValidityTimeout (src : RefSrc)
  /-- `VIGIL_LIMIT_EXPIRED` (R416): vigil_limit seconds pass in VIGIL and the time service enters FREE_RUN. -/
  | vigilLimitExpired
  /-- `TIME_SET` (R418): TIM_CTRL.set in UNSET labels device time at the next whole second. -/
  | timeSet
  /-- `MGR_SAMPLE_WRITE` (R410): A write of TIM_MGR_SAMPLE supplies a manager offset sample. -/
  | mgrSampleWrite (value : Word)
  /-- `TIM_NOW_READ` (R435): A read of TIM_NOW_LO latches TIM_NOW_HI and TIM_NOW_FRAC. -/
  | timNowRead
  /-- `PULSE_START` (R423): TIM_PULSE.start starts TPULSE at the first whole second at least 0.5 s later. -/
  | pulseStart
  /-- `TPULSE_RISE` (R423): TPULSE rises for whole second k, unless fewer than 0.5 s have passed since the last rise. -/
  | tpulseRise
  /-- `TPULSE_FALL` (R426): TPULSE falls after width_us of elapsed time. -/
  | tpulseFall
  /-- `TDM_LINK_ENABLE` (R474): A write of TDM_CTRL.enable turns the tandem link and heartbeat on or off. -/
  | tdmLinkEnable (on : Bool)
  /-- `HANDOVER` (R462): TDM_CTRL.handover on a MIRRORED active unit flags the current catch, and the unit becomes standby from the next boundary. -/
  | handover
  /-- `FORCE_CLAIM` (R456): TDM_CTRL.force_claim makes an unpaired or refusing standby claim at the next boundary. -/
  | forceClaim
  /-- `TDM_CLR_STAT` (R475): TDM_CTRL.clr_stat clears TDM_HB and TDM_LINK_STAT. -/
  | tdmClrStat
  /-- `LANE_LOCK` (R436): A tandem receive lane locks after 64 good IDLE sets. -/
  | laneLock (lane : Fin 4)
  /-- `LANE_LOCK_LOST` (R471): A tandem lane loses lock and is dropped from the reported receive mask. -/
  | laneLockLost (lane : Fin 4)
  /-- `HEARTBEAT_SEND` (R442): At offset 500 µs each unit pulses HB_OUT and sends a HEARTBEAT block. -/
  | heartbeatSend
  /-- `HB_IN_EDGE` (R442): A rising edge on HB_IN counts as the partner's heartbeat if it arrives in the window. -/
  | hbInEdge (offUs : Nat)
  /-- `RX_HEARTBEAT_BLOCK` (R442): A HEARTBEAT block is received. -/
  | rxHeartbeatBlock (rx : RxBlk) (beat : Beat) (offUs : Nat)
  /-- `HEARTBEAT_MISS` (R442): At offset 550 µs a frame without a heartbeat counts as a miss. -/
  | heartbeatMiss
  /-- `TDM_PARTNER_LOST` (R443): Three consecutive misses mark the partner lost. -/
  | tdmPartnerLost
  /-- `RX_PAIR_BLOCK` (R439): A PAIR block is received, and pairing, epoch, lane mask and the tail position are judged. -/
  | rxPairBlock (blk : Rcv PairBlock)
  /-- `RX_CATCH_ENTRY` (R444): The standby receives streamed catch entries on the CATCH channel. -/
  | rxCatchEntry (blk : Rcv CatchEntry)
  /-- `RX_CATCH_CLOSE` (R448): The standby checks a CLOSE entry and answers CATCH_ACK or CATCH_NAK. -/
  | rxCatchClose (blk : Rcv CatchClose)
  /-- `RX_CATCH_ACK` (R448): The active unit receives CATCH_ACK f, and that catch's allowance comes into force. -/
  | rxCatchAck (blk : Rcv Nat)
  /-- `RX_CATCH_NAK` (R448): The active unit receives CATCH_NAK f and sends record f again with every later record. -/
  | rxCatchNak (blk : Rcv Nat)
  /-- `RX_RELAY_REQUEST` (R464): The split partner receives a relay request and issues its transaction. -/
  | rxRelayRequest (blk : Rcv RelayReq)
  /-- `RX_RELAY_RESULT` (R464): The active unit applies a relay result as if its own port had received the response. -/
  | rxRelayResult (blk : Rcv RelayRes)
  /-- `SPLIT_HEAL_CHECK` (R466): Every 128 frames the split partner reads GET_HUB_STATUS from hub k + 1 to test the break. -/
  | splitHealCheck (trunk : Fin 8) (linkUp : Bool)
  /-- `RX_HEAL_NOTICE` (R466): The active unit receives a heal notice, unseals hub k and reclaims the far part of the trunk. -/
  | rxHealNotice (blk : Rcv (Fin 8))
  /-- `RX_TIME_BLOCK` (R467): A TIME block or its answer arrives and yields the partner offset sample. -/
  | rxTimeBlock (rx : RxBlk) (msg : TimeMsg) (state source : Nat)
  /-- `FENCE_IN_CHANGE` (R454): FENCE_IN_N falls or rises, which gates or releases DTXEN of the pair-fed ports. -/
  | fenceInChange (low : Bool)
  /-- `CLAIM_FAILED` (R453): A claim not confirmed by HOP_RSP in three frames fails, and the trunk is quarantined. -/
  | claimFailed (trunk : Fin 8)
  /-- `PROBE` (R483): Every 128 frames a pruned far side or quarantined trunk is probed. -/
  | lineProbe (trunk : Fin 8) (target : Nat) (seen : ProbeSeen)
  /-- `READMISSION` (R484): At the boundary after the eighth clean probe, the subtree or trunk is readmitted. -/
  | readmission (trunk : Fin 8) (target : Nat)
  /-- `URGENT_EXPIRED` (R485): An urgent transfer whose target stays unreachable until its hold count reaches urgent_hold completes URGENT_EXPIRED. -/
  | urgentExpired (xfer : Fin 4096)
  /-- `EVT_ENABLE` (R489): EVT_CTRL.enable enables an event ring with its counts at 0. -/
  | evtEnable (fn : Fin 64)
  /-- `EVT_DISABLE` (R495): EVT_CTRL.disable stops writing, and events wait in the backlog. -/
  | evtDisable (fn : Fin 64)
  /-- `EVT_HEAD_WRITE` (R489): A write of EVT_HEAD returns event-ring space. -/
  | evtHeadWrite (fn : Fin 64) (value : Word)
  /-- `EVENT_RECORD_WRITE` (R490): An event record, or an event from the backlog, is written to the ring once it is enabled and has room. -/
  | eventRecordWrite (fn : Fin 64)
  /-- `MSIX_HOLDOFF_EXPIRY` (R492): A vector's holdoff ends, and one message is sent if causes are pending. -/
  | msixHoldoffExpiry (fn : Fin 64) (vec : Fin 32)
  /-- `MSIX_VECTOR_UNMASK` (R492): A masked vector with its PBA bit set is unmasked and sends its message. -/
  | msixVectorUnmask (fn : Fin 64) (vec : Fin 32)
  /-- `REGISTER_WRITE` (R505): A write to a register without a row of its own stores its fields under their access codes and change classes. -/
  | registerWrite (fn : Fin 64) (bar : Fin 3) (offset : Nat) (words : List WriteWord)
  /-- `PARKED_PORT_SOF` (R441): The standby's parked line port receives a good SOF repeated by the tail anchor and records its hop field, and takes a newer epoch from it. -/
  | parkedPortSof (trunk : Fin 8) (hop epoch : Nat)
  /-- `PARKED_PORT_LRATE` (R183): The standby's parked port receives the LRATE that the tail anchor repeats and switches its receiver at the start of the electrical idle that follows. -/
  | parkedPortLrate (trunk : Fin 8) (rate : Nat)
  /-- `PARKED_PORT_RATE_TRY_EXPIRY` (R183): A parked port that has lost lock ends its 1 ms try at one rate without lock and tries the next of the three rates. -/
  | parkedPortRateTryExpiry (trunk : Fin 8)
  /-- `FUSE_BLOW_DONE` (R83): A commit or key-programming operation finishes blowing fuses, the fuse shadow is updated, busy clears and IMG_ROLLBACK_COMMITTED or IMG_KEY_PROGRAMMED is raised. -/
  | fuseBlowDone
  /-- `VDDIO33_RESTORED` (R538): VDDIO_33 reaches 2.8 V again, so a deasserted PERST_N takes effect and the line ports stop acting as if LFAULT_N were low. -/
  | vddio33Restored (straps : Straps)
  /-- `PCIE_REF_OK_CHANGE` (R142): The PCIe reference clock is lost or returns, and CLK_STATUS.pcie_ref_ok changes. -/
  | pcieRefOkChange (ok : Bool)
  deriving DecidableEq, Repr

end Sys2Proof
end

