-- ==== Sys2Proof/Decode.lean ====
section
/-! DEFINITION. The command a word spells.  The table gives no row any bits, so no word spells a command. -/

namespace Sys2Proof

/-- The command of a word numbered as the opcode table numbers bits: the table gives bits to no row. -/
def decodeTableWord (_nbits _w : Nat) : Option Instr := none

end Sys2Proof
end

