-- ==== Sys2Proof/Config.lean ====
section
/-! DEFINITION. What an implementation fixes, and the free values.

An `opaque` constant has no body anyone can see: a claim about the model holds whatever it is.
The reasons for each one are in notes/assumptions (log 1). -/

namespace Sys2Proof.Config

/-- A free number, applied to the model's counter of open values: results the manual leaves undefined (malformed
descriptors, R48, R359) or does not state.  Log 1. -/
opaque freeNat : Nat → Nat

/-- How far after a frame boundary the first LCLK edge falls, in ns (R409): 0 to 4.  Log 1. -/
opaque lclkEdge : Nat → Fin 5

/-- Rounding of a rate in ppb to the 0.01 ppb steps of `TIM_RATE` and to the steps of R408, which the
manual does not state: a free choice between rounding down and up.  Log 1. -/
opaque roundUp : Nat → Bool

/-- How many blocks of the tandem link a RELAY message takes beyond those its payload fills, less one (R437): the manual
lays out no RELAY message.  Log 1. -/
opaque relayBlocks : Nat → Fin 8

/-- Revision version of the JTAG identification code on a revision other than A0 (R521).  Log 69. -/
opaque jtagVersion : Nat → BitVec 4

/-- What the bits of a JTAG instruction select: the identification code, the bypass bit, the boundary-scan register or
another register (R521).  Log 69. -/
opaque jtagSelect : List Bool → Fin 4

/-- The negotiated link: the width is 2 to the power of the first number, the speed code one more than the second
(R267).  Log 1. -/
opaque linkState : Fin 3 × Fin 3

end Sys2Proof.Config
end

