-- ==== Sys2Proof/Machine/State.lean ====
section
/-! DEFINITION. The state of the block, as plain data.  Each field names the rule that gives it; where the
manual gives no reset value the log entry is named.  A `Tab` lists only the entries that differ from the
reset value of one entry. -/

namespace Sys2Proof.Machine

/-- Every fault: none.  The block never stops: errors are status codes, reason codes and events
(00_scope.md R8), so no command raises a fault.  Safe: nothing is hidden behind it. -/
inductive Fault where
  deriving DecidableEq, Repr

/-- Why a command has no meaning. -/
inductive Refusal where
  /-- Raised by the dispatcher for a row that has no meaning yet.  Safe: nothing can be proved of it. -/
  | notModelled (mnemonic : String)
  deriving DecidableEq, Repr

/-- The events of Table 15.2 (codes in Machine/Events.lean). -/
inductive EventName where
  | imgApplied | imgSlotRejected | imgLoaderState | imgBpUnsupported | imgPushRejected | imgCrewReloaded
  | imgStoreDone | imgStoreFailed | imgRollbackCommitted | imgKeyProgrammed | imgCalItemIgnored
  | startDone | pwrDomainFault
  | calSaturated | tempWarn | tempAlarm | tempClear | vmonOutOfRange | vmonClear | thermalTrip
  | lineStarted | lineStopped | lineFault | lineLockLost | lineRateChanged | lineRateIncomplete
  | linePolarityInverted | lineResponderMismatch | lineToggleResync
  | lineLecWarn | lineTecWarn | lineLocate | subtreePruned | trunkQuarantined | subtreeReadmitted
  | lineLocateClear
  | nodeNew | nodeRestored | nodeHeld | nodeDetached | nodeNoAddress | rosterFull | heldTableFull
  | hubOnFunctionPort | functionOnSpine | nodeAttachFailed | hubClaimed | sleepEntered | sleepAborted
  | wakeReceived | resumeDone | hubEventsLost | hubNoContext
  | pollMissed | pollFailed | almEntryDropped | almHubUnplaced | almTailUnplaced
  | crewCreated | crewTornDown | crewResetDone | mbxReceived | mbxAcked | mbxDropped | mbxSeqErr
  | epGranted | epRevoked | quotaChanged | crewGrantFailed
  | ringHalted | ringShutdownDone | ringIndexInvalid | cqStalled | ringPermDenied
  | dmaChHalted | dmaChStopped | dmaCqStalled | dmaNoChannel | dmaIndexInvalid
  | cellQueueReset | epmEccError | rxpClosed
  | arbStarved | arbHolderCut
  | timeSet | timeLocked | timeVigil | timeFreeRun | timeSourceChanged | timeStepped | timeBackstep
  | pulseSkipped | timeRefLost | timeHopReset
  | pairUp | pairProfileMismatch | pairRoleConflict | mirrorReady | mirrorLag | mirrorLagClear | mirrorLost
  | tdmWidthChanged | tdmHbMissed | tdmPartnerLost | changeover | changeoverRefused | claimFailed
  | claimLost | tdmFenced | splitEntered | splitHealed | splitEnded | tdmTimeSkew | tdmTailDown
  | cfgReject
  deriving DecidableEq, Repr

/-- One event as raised (Table 15.3): trunk 255 when none applies. -/
structure Event where
  name : EventName
  trunk : Nat
  detail : Nat
  time : Nat
  deriving DecidableEq, Repr

/-- What the line port does to the line outside packets (Table 5.2, R149). -/
inductive LineSig where
  | idle | electricalIdle | resume
  deriving DecidableEq, Repr

/-- Flash commands of a store or a load (R85, R87, R95): the command byte, the address bytes, the clock in MHz and the
flash byte address; a read has its dummy clocks and its length.  A program carries its bytes, and `status` is the wait on
the status register. -/
inductive FlashCmd where
  | read (op : Byte) (addrBytes dummy mhz addr len : Nat)
  | erase (op : Byte) (addrBytes mhz addr : Nat)
  | program (op : Byte) (addrBytes mhz addr : Nat) (bytes : List Byte)
  | status (op : Byte) (mhz : Nat)
  deriving DecidableEq, Repr

/-- A packet as it leaves (R150, R151): the header, its CRC-8, the payload and the CRC-32 over it, least significant byte
first; a packet without a payload has no CRC-32. -/
structure LinePkt where
  hdr : List Byte
  crc8 : Byte
  payload : List Byte
  crc32 : List Byte
  deriving DecidableEq, Repr

/-- Errors AER tells apart (R269, R512). -/
inductive AerKind where
  | poisoned | completionTimeout | completerAbort | unsupportedRequest | internal
  deriving DecidableEq, Repr

/-- What leaves the block through its interfaces. -/
inductive Output where
  | hostWrite (fn : Nat) (addr : Addr) (bytes : List Byte)
  | hostRead (fn tag : Nat) (addr : Addr) (len : Nat)
  | msix (fn vec : Nat)
  | packet (trunk : Nat) (pkt : LinePkt)
  | signal (trunk : Nat) (sig : LineSig)
  | hbPulse
  | tpulse (high : Bool)
  | tdmHeartbeat (frame : Nat) (bow active : Bool) (pair epoch : Nat)
  | tdmPair (blk : PairBlock)
  | tdmEntry (e : CatchEntry)
  | tdmClose (c : CatchClose)
  | tdmAck (frame : Nat)
  | tdmNak (frame : Nat)
  | tdmRelay (r : RelayReq)
  | tdmResult (r : RelayRes)
  | tdmHeal (trunk : Nat)
  | tdmTime (t1 : Nat)
  /-- The answer to a TIME block, with its stamps. -/
  | tdmAnswer (t1 t2 : Int) (t3 : Nat)
  /-- A block: its lane, its channel and number, and of its data bytes those the manual fixes. -/
  | tdmBlock (lane channel num : Nat) (data : List Byte)
  | flash (cmd : FlashCmd)
  | aer (fn : Nat) (addr : Addr) (kind : AerKind)
  | cfgReply (fn : Nat) (retry : Bool) (value : Word)
  | popReply (crew port : Nat) (word : BitVec 64)
  | readReply (value : Word)
  deriving DecidableEq, Repr

/-- Fuses and factory programming (R82, R83, Table 2.7, Table 2.8, R126, R140). -/
structure Fuses where
  keyHash : Option (List Byte) := none
  rollback : Nat := 0
  debugIntact : Bool := true
  siliconRev : Nat := 0xA0
  bpHighest : Nat := 1
  gradeX : Bool := false
  factory : Tab Int := []
  deriving DecidableEq, Repr

/-- Stage of start-up before the release point (Table 4.4). -/
inductive Stage where
  | porDelay | pll | waitRelease | started | clockFailed
  deriving DecidableEq, Repr

/-- Progress of one of S2 to S5. -/
inductive Progress where
  | idle | running | done
  deriving DecidableEq, Repr

/-- Input pins as levels. -/
structure Pins where
  perstHigh : Bool := false
  vddio33Ok : Bool := true
  refclkOk : Bool := true
  testEn : Bool := false
  perstWait : Bool := false
  deriving DecidableEq, Repr

/-- CLK/PWR block and start-up (Tables 4.2 to 4.4, 4.9). -/
structure Pwr where
  stage : Stage := .waitRelease
  s2 : Progress := .idle
  s3 : Progress := .idle
  s4 : Progress := .idle
  s5 : Progress := .idle
  stageT0 : Word := 0xFFFFFFFF
  stageT1 : Word := 0xFFFFFFFF
  stageT2 : Word := 0xFFFFFFFF
  stageT3 : Word := 0xFFFFFFFF
  startDone : Bool := false
  pllLock : Bool := true
  pcieRefOk : Bool := true
  on : BitVec 24 := 0x600003
  wait : BitVec 24 := 0
  fault : BitVec 24 := 0
  req : BitVec 24 := 0
  cause : BitVec 8 := 1
  releaseTimer : Bool := false
  /-- A clock-fail reset is to be released: its release point samples the straps (R116). -/
  strapsDue : Bool := false
  tripped : Bool := false
  tripCool : Bool := false
  deriving DecidableEq, Repr

/-- A field of change class F: the written value and the value in force (R5, R507). -/
structure FReg (α : Type) where
  written : α
  inForce : α
  deriving DecidableEq, Repr

/-- One voltage channel (Table 4.7, Table 4.10). -/
structure Vmon where
  mv : Int := 0
  out : Bool := false
  low : Nat
  high : Nat
  outRun : Nat := 0
  inRun : Nat := 0
  deriving DecidableEq, Repr

/-- CAL block (R126 to R140). -/
structure Cal where
  user : Tab Int := []
  userForce : Tab Int := []
  eff : Tab Int := []
  sat : BitVec 21 := 0
  temp : Int := 0
  warn : Bool := false
  alarm : Bool := false
  warnThr : Int := 1600
  alarmThr : Int := 1680
  warnRun : Nat := 0
  warnBack : Nat := 0
  alarmRun : Nat := 0
  alarmBack : Nat := 0
  tripRun : Nat := 0
  vmon : List Vmon := [⟨0, false, 760, 840, 0, 0⟩, ⟨0, false, 808, 892, 0, 0⟩, ⟨0, false, 760, 840, 0, 0⟩,
    ⟨0, false, 855, 945, 0, 0⟩, ⟨0, false, 1710, 1890, 0, 0⟩, ⟨0, false, 855, 945, 0, 0⟩,
    ⟨0, false, 3135, 3465, 0, 0⟩, ⟨0, false, 1710, 1890, 0, 0⟩]
  deriving DecidableEq, Repr

/-- Header of an image (Table 3.2). -/
structure ImgHdr where
  fmt : Nat
  kind : Nat
  bp : Nat
  debug : Bool
  rollback : Nat
  sections : Nat
  length : Nat
  id : Nat
  flashRead : Nat
  deriving DecidableEq, Repr

/-- Section table entry (Table 3.3). -/
structure SecEnt where
  ty : Nat
  inst : Nat
  off : Nat
  len : Nat
  digest : List Byte
  deriving DecidableEq, Repr

/-- Trunk entry (Table 3.5a). -/
structure TrkImg where
  rate : Nat
  epCtx : Nat
  tc : Nat
  epmKib : Nat
  mgrEpCtx : Nat
  mgrTc : Nat
  mgrEpmKib : Nat
  deriving DecidableEq, Repr

/-- DMA channel entry (Table 3.5b). -/
structure ChImg where
  owner : Nat
  level : Nat
  purpose : Nat
  deriving DecidableEq, Repr

/-- Crew section (Table 3.6); the four lists hold one number per trunk. -/
structure CrewSec where
  tc : List Nat
  epCtx : List Nat
  epmKib : List Nat
  almUs : List Nat
  cells : Nat
  queues : Nat
  rings : Nat
  ringLog2Max : Nat
  bulkMin : Nat
  bulkWeight : Nat
  epmBufLog2 : Nat
  permUrgent : Bool
  permBcast : Bool
  deriving DecidableEq, Repr

/-- Roster seed entry (Table 3.8). -/
structure SeedEnt where
  trunk : Nat
  hub : Nat
  port : Nat
  addr : Nat
  owner : Nat
  identity : List Byte
  config : List Byte
  deriving DecidableEq, Repr

/-- An image that passed its checks, parsed (Tables 3.1 to 3.8). -/
structure Image where
  hdr : ImgHdr
  table : List SecEnt
  crewMax : Nat
  trunkEnable : BitVec 8
  pairFed : BitVec 8
  mgrCells : Nat
  mgrQueues : Nat
  trunks : List TrkImg
  chans : List ChImg
  crews : List (Nat × CrewSec)
  cal : List (Nat × Int)
  seeds : List SeedEnt
  deriving DecidableEq, Repr

/-- State of `IMG_STATUS.state`. -/
inductive ImgState where
  | loading | applied | loader
  deriving DecidableEq, Repr

/-- Where a running image operation stands. -/
inductive ImgPhase where
  | powerUp | reading | checking | erasing | programming | header | eraseBad | blowing
  deriving DecidableEq, Repr

/-- A running image operation: op 0 is the load from flash of S4.  `part` counts the parts of a push that have been read
and accepted (header, section table, signature block); `crewsAt` are the crews that existed when the operation was
written (R93); `pos` is where a store erases or programs. -/
structure ImgRun where
  op : Nat
  phase : ImgPhase
  slotB : Bool := false
  triedOther : Bool := false
  data : List Byte := []
  sig : List Byte := []
  part : Nat := 0
  crewsAt : List Nat := []
  pos : Nat := 0
  asked : Nat := 0
  result : Nat := 0
  deriving DecidableEq, Repr

/-- IMG block (Table 3.12, R543). -/
structure Img where
  state : ImgState := .loading
  source : Nat := 0
  slotAReason : Nat := 0x0F
  slotBReason : Nat := 0x0F
  applied : Option Image := none
  pushBase : Addr := 0
  pushLen : Nat := 0
  keyStage : Tab Word := []
  busy : Bool := false
  reason : Nat := 0
  lastOp : Nat := 0
  run : Option ImgRun := none
  kept : Option (List Byte) := none
  keptLen : Nat := 0
  /-- flash_read of the push a store would write (R95). -/
  keptRead : Nat := 0
  deriving DecidableEq, Repr

/-- What a host read is for (R336, R323, R102). -/
inductive ReadFor where
  | desc (crew ring first n : Nat)
  | link (xfer : Nat)
  | walk (ch xfer : Nat)
  | payload (ch xfer : Nat)
  | push
  | store
  | chDesc (ch : Nat)
  | stageSrc (ch : Nat)
  | flush (ch : Nat)
  | discard (ch : Option Nat)
  deriving DecidableEq, Repr

/-- A non-posted request: outstanding under its tag, or waiting for its grant. -/
structure HostRead where
  fn : Nat
  addr : Addr
  len : Nat
  use : ReadFor
  deriving DecidableEq, Repr

/-- What a waiting host request asks for: a write, one with `back` being the last of a descriptor's write-back, with its irq
bit (R349); a read; or a vector's message. -/
inductive HostBody where
  | write (addr : Addr) (bytes : List Byte) (back : Option Bool)
  | read (r : HostRead)
  | msix (vec : Nat)
  deriving DecidableEq, Repr

/-- A host request that waits for a grant of the host-request arbiter, or for its function's Bus Master Enable: the requester
(Table 12.3) and the function (R393, R545). -/
structure HostReq where
  req : Nat
  fn : Nat
  body : HostBody
  deriving DecidableEq, Repr

/-- PCI Express state the controller acts on (R267, R272, R336, R544). -/
structure Pci where
  vfEnable : Bool := false
  numVfs : Nat := 0
  maxPayload : Nat := 128
  maxRead : Nat := 512
  cto : Nat := 0
  tags : List (Nat × HostRead) := []
  /-- Host requests not yet issued, oldest first. -/
  queue : List HostReq := []
  tagPeak : Nat := 0
  tagWait : Nat := 0
  tagWaited : Bool := false
  /-- Sticky AER status of each function (R115, R269). -/
  aer : Tab Word := []
  deriving DecidableEq, Repr

/-- States of the time service (Table 13.2). -/
inductive TimState where
  | unset | locked | vigil | freeRun
  deriving DecidableEq, Repr

/-- Time service (chapter 13).  Rates are exact rationals in ppb. -/
structure Tim where
  running : Bool := true
  ns : Nat := 0
  sub : Nat := 0
  nextBoundary : Nat := nsPerFrame
  nextSecond : Nat := 1
  rate : Rat := 0
  integ : Rat := 0
  held : Rat := 0
  lockedRates : List Rat := []
  state : TimState := .unset
  source : Nat := 0
  valid1 : Bool := false
  valid2 : Bool := false
  valid3 : Bool := false
  ppsGood : Nat := 0
  ppsBad : Nat := 0
  /-- Timestamp of the last good edge, in root-PLL cycles of 5/12 ns (Table 13.1). -/
  ppsLast : Option Int := none
  ppsTheta : Option Rat := none
  ppsRejected : Nat := 0
  /-- Elapsed time at the last good edge and at the last manager sample (Table 13.1). -/
  ppsSeen : Nat := 0
  mgrSeen : Nat := 0
  partnerTheta : Option Rat := none
  mgrTheta : Option Rat := none
  srcOrder : BitVec 6 := 0x39
  allowBack : Bool := false
  kp : Nat := 2
  ki : Nat := 6
  vigilLimit : Nat := 300
  setLo : Word := 0
  setHi : Word := 0
  convRun : Nat := 0
  converged : Bool := false
  slewing : Bool := false
  step : Option Rat := none
  setWait : Bool := false
  /-- Device time at the entry into VIGIL (R416, R417). -/
  vigilAt : Nat := 0
  theta : Int := 0
  steps : Nat := 0
  pulseStart : Bool := false
  pulseFirst : Nat := 0
  pulseRunning : Bool := false
  pulseHigh : Bool := false
  pulseWidth : Nat := 100000
  pulseWidthNow : Nat := 100000
  pulseLast : Option Nat := none
  /-- The whole second whose pulse has risen or was skipped. -/
  pulseDone : Option Nat := none
  elapsed : Nat := 0
  latchHi : Word := 0
  latchFrac : BitVec 16 := 0
  deriving DecidableEq, Repr

/-- What a transaction serves. -/
inductive Purpose where
  | occurrence | transfer | measure | rateConfirm | walk | claimConfirm | seal | resend | relay (id longest : Nat)
  deriving DecidableEq, Repr

/-- A transaction in a line slot (R26, Table 7.3); times in 0.1 us from the frame boundary. -/
structure Txn where
  slot : Nat
  kind : TxnKind
  purpose : Purpose
  addr : Nat
  ep : Nat
  hub : Nat
  hop : Nat
  ctx : Option Nat := none
  xfer : Option Nat := none
  crew : Nat := 0
  attempt : Nat := 1
  off : Nat := 0
  d : Nat := 0
  e : Nat := 0
  b : Nat := 0
  cost : Nat := 0
  rs : Bool := false
  got : Nat := 0
  broken : Bool := false
  bad : Bool := false
  /-- The packet being received when the port was flushed yields no item (R384). -/
  flushed : Bool := false
  /-- The port's queue was reset: the next token carries rs (R388). -/
  keepRs : Bool := false
  deriving DecidableEq, Repr

/-- A reservation of the frame (R235): downstream, upstream and slot intervals. -/
structure Resv where
  off : Nat
  d : Nat
  e : Nat
  b : Nat
  up : Bool
  planned : Option Nat := none
  deriving DecidableEq, Repr

/-- Sleep of a scope (R216 to R224); `asked` tells whether the SETUP of the SUSPEND request has gone. -/
inductive Sleep where
  | awake
  | asked (sent : Bool)
  | eve (frame : Nat)
  | asleep
  | waking (frame : Nat) (cmd : Bool)
  deriving DecidableEq, Repr

/-- What the controller holds about the hub at one position (T15.8, R427, R216). -/
structure Hub where
  lec : Nat := 0
  warn : Bool := false
  pruned : Bool := false
  clean : Nat := 0
  /-- The answer of this probe frame's GET_HUB_STATUS showed port 16 with its link up (R483). -/
  probeUp : Bool := false
  charged : Nat := 0
  prunedAt : Nat := 0
  sealed : Bool := false
  far : Sleep := .awake
  ports : Tab Sleep := []
  /-- The partner reported that the hub holds a suspend (Table 14.3): a port suspend may be resumed from here (R227). -/
  holder : Bool := false
  dly : Nat := 0
  dlyValid : Bool := false
  dlyRej : Nat := 0
  deriving DecidableEq, Repr

/-- A locate walk (R480). -/
structure Walk where
  first : Nat
  cur : Nat
  tries : Nat := 0
  deriving DecidableEq, Repr

/-- A rate change in progress (Table 5.13). -/
structure RateChg where
  start : Nat
  electricalIdle : Bool := false
  resumed : Bool := false
  hop : Nat := 1
  tries : Nat := 0
  done : Bool := false
  deriving DecidableEq, Repr

/-- An attach being handled (R208): the hub and port it sits behind, the step, and the answers so far. -/
structure Attach where
  hub : Nat
  port : Nat
  step : Nat := 0
  tries : Nat := 0
  result : Option Nat := none
  identity : List Byte := []
  epmap : List Byte := []
  entry : Option Nat := none
  restore : Bool := false
  isNew : Bool := false
  failed : Bool := false
  /-- Status of the last request that failed (R228). -/
  lastFail : Nat := 0
  tag : Nat := 0
  retryNext : Bool := false
  deriving DecidableEq, Repr

/-- Why a port waits to be handled again (R209, R213, R261); `detach`: it stays disabled until what is behind it detaches
(R213; log 54). -/
inductive AgainFor where
  | address | entry | contexts | held
  | almanac (free : Nat)
  | detach
  deriving DecidableEq, Repr

/-- State of a line port (`TRK_STATUS.state`). -/
inductive TrkState where
  | stopped | starting | running | parked | rateChange | fault
  deriving DecidableEq, Repr

/-- Split mode of a trunk (Table 14.9). -/
inductive SplitMode where
  | whole | split | healing
  deriving DecidableEq, Repr

/-- One outcome of an exchange of the frame, for the settlement of R477. -/
structure Exchange where
  hop : Nat
  good : Bool
  deriving DecidableEq, Repr

/-- One trunk and its line port (chapters 5, 7, 14 and 15). -/
structure Trk where
  state : TrkState := .stopped
  hold : Bool := false
  lock : Bool := false
  polInv : Bool := false
  polTold : Bool := false
  lfault : Bool := false
  rate : Nat := 0
  rateEff : Nat := 0
  crcErr : Nat := 0
  framingErr : Nat := 0
  timeouts : Nat := 0
  resyncs : Nat := 0
  lpwr : Bool := false
  urxen : Bool := false
  dtxen : Bool := false
  stopReq : Bool := false
  startWait : Bool := false
  rateReq : Bool := false
  rateChg : Option RateChg := none
  holdClear : Bool := false
  tec : Nat := 0
  tecWarn : Bool := false
  quarantined : Bool := false
  quarAt : Nat := 0
  quarIdle : Bool := false
  clean : Nat := 0
  walk : Option Walk := none
  unreach : Nat := 0
  pruneAt : Option Nat := none
  hubs : Tab Hub := []
  slots : List Txn := []
  resv : List Resv := []
  exhausted : List Txn := []
  exchanges : List Exchange := []
  nextOff : Nat := 0
  c0 : Nat := 0
  c0Last : Nat := 0
  slotsPeak : Nat := 0
  peakNow : Nat := 0
  slotWait : Nat := 0
  slotWaited : Bool := false
  urgentPtr : Nat := 0
  sharePtr : Nat := 0
  rotStart : Nat := 0
  turn : Nat := 0
  issued : Bool := false
  urgentTold : Bool := false
  urgentUs : Nat := 40
  capUs : Nat := 700
  urgentHold : FReg Nat := ⟨4, 4⟩
  part : Nat := 0
  phase2 : Bool := false
  hopWait : Option (Nat × Nat) := none
  credit : Tab Nat := []
  deficit : Tab Nat := []
  bseq : Tab Nat := []
  attach : Option Attach := none
  attachQ : List (Nat × Nat) := []
  again : List (Nat × Nat × AgainFor) := []
  headIdle : Bool := false
  /-- Hubs, by address, with a port request they may not have acted on yet, and the line slots held when its status
  came: a node acts on a request whose status goes upstream only at a later packet to it (R169, log 54). -/
  unacted : List (Nat × List Nat) := []
  sleep : Sleep := .awake
  tailN : Nat := 0
  tailLearnt : Bool := false
  tailCand : Nat := 0
  tailRun : Nat := 0
  parkedHop : Nat := 0
  tailLock : Bool := false
  tryRate : Option Nat := none
  mode : SplitMode := .whole
  splitK : Nat := 0
  splitAt : Nat := 0
  relays : List RelayReq := []
  /-- At the split partner: the requests relayed whose status stage has not ended: address, SETUP, line errors in a row
  (R187, R464). -/
  farSetup : List (Nat × List Byte × Nat) := []
  relayed : List Txn := []
  relayWait : Nat := 0
  relayWaited : Bool := false
  healClean : Nat := 0
  healAt : Option Nat := none
  claimAt : Option Nat := none
  claimTries : Nat := 0
  claiming : Bool := false
  claimFrame : Bool := false
  claimConfirm : Bool := false
  deriving DecidableEq, Repr

/-- A roster entry (Tables 3.8, 6.7), with what the controller keeps for its node: endpoint map, next
control tag, last SETUP and whether its transfer was acted on. -/
structure Entry where
  trunk : Nat
  hub : Nat
  port : Nat
  addr : Nat
  owner : Nat
  attached : Bool := false
  configValid : Bool := false
  wake : Bool := false
  seeded : Bool := false
  isHub : Bool := false
  identity : List Byte
  config : List Byte
  epmap : List Byte := []
  tag : Nat := 0
  setup : List Byte := []
  acted : Bool := false
  deriving DecidableEq, Repr

/-- A held slot (Table 6.11). -/
structure Held where
  trunk : Nat
  hub : Nat
  port : Nat
  entry : Nat
  identity : List Byte
  deriving DecidableEq, Repr

/-- A running ROS_CMD (Table 6.14). -/
structure RosRun where
  op : Nat
  trunk : Nat
  hub : Nat
  port : Nat
  status : Option Nat := none
  failSt : Option Nat := none
  deriving DecidableEq, Repr

/-- ROS block and roster (chapter 6). -/
structure Ros where
  evLog2 : FReg Nat := ⟨2, 2⟩
  entries : List (Nat × Entry) := []
  held : List (Nat × Held) := []
  idx : Nat := 0
  heldIdx : Nat := 0
  busy : Bool := false
  status : Nat := 0
  lastOp : Nat := 0
  run : Option RosRun := none
  deriving DecidableEq, Repr

/-- EPM buffer states (Table 11.1). -/
inductive BufState where
  | never | full | used
  deriving DecidableEq, Repr

/-- An endpoint buffer and its policies (R363 to R369, Table 11.9). -/
structure Epm where
  withhold : FReg Bool := ⟨false, false⟩
  stageWait : FReg Bool := ⟨false, false⟩
  repeats : FReg Bool := ⟨false, false⟩
  state : BufState := .never
  lost : Bool := false
  pending : Option (List Byte) := none
  /-- The copy of an OUT occurrence that ended with NAK or STALL: it goes again, with the same toggle (R163, log 35). -/
  copy : Option (List Byte) := none
  newer : Bool := false
  data : List Byte := []
  frame : Nat := 0
  stamp : Nat := 0
  overwritten : Nat := 0
  withheld : Nat := 0
  size : Nat := 0
  deriving DecidableEq, Repr

/-- An almanac entry (Table 7.4) and the add or removal under way. -/
structure Alm where
  valid : Bool := false
  hubEv : Bool := false
  ilog2 : Nat := 0
  phase : Nat := 0
  offHead : Nat := 0
  offTail : Nat := 0x3FFF
  costHead : Nat := 0
  costTail : Nat := 0
  crew : Nat := 0
  lastStatus : Nat := 0
  adding : Bool := false
  removing : Bool := false
  deriving DecidableEq, Repr

/-- An occurrence under way (R253, R255). -/
structure Occ where
  attempts : Nat := 0
  late : Bool := false
  waiting : Bool := false
  bytes : List Byte := []
  /-- The toggle at its offset, or of its first attempt (R163, R254). -/
  tg : Option Bool := none
  deriving DecidableEq, Repr

/-- An endpoint context (R34, R172, R277). -/
structure Ctx where
  used : Bool := false
  trunk : Nat := 0
  addr : Nat := 0
  ep : Nat := 0
  entry : Nat := 0
  owner : Nat := 0
  kind : Nat := 0
  maxPacket : Nat := 0
  bcastOk : Bool := false
  e : Bool := false
  t : Bool := false
  outOld : Nat := 0
  outNext : Nat := 0
  inE : Nat := 0
  halted : Bool := false
  rsNext : Bool := false
  epm : Epm := {}
  alm : Alm := {}
  occ : Occ := {}
  nakFrame : Option Nat := none
  missedAt : Option Nat := none
  failedAt : Option Nat := none
  channel : Option Nat := none
  port : Option Nat := none
  revoking : Bool := false
  deriving DecidableEq, Repr

/-- COX block (Table 7.11). -/
structure Cox where
  mgrWeight : FReg Nat := ⟨32, 32⟩
  busy : Bool := false
  reason : Nat := 0
  phase : Nat := 0
  entry : List Word := [0, 0, 0, 0]
  run : Option (Nat × Nat × Nat × Nat) := none
  deriving DecidableEq, Repr

/-- Crew states (Table 8.3). -/
inductive CrewState where
  | absent | creating | running | resetting | tearingDown
  deriving DecidableEq, Repr

/-- One direction of a mailbox (R289). -/
structure Mbox where
  staging : Tab Word := []
  buffer : Tab Word := []
  pending : Bool := false
  seq : Nat := 0
  busyDrop : Bool := false
  seqErr : Bool := false
  deriving DecidableEq, Repr

/-- Ring states. -/
inductive RingState where
  | disabled | running | halted | stopping
  deriving DecidableEq, Repr

/-- A taken entry of a ring: its outcome once fixed (status, bytes), and what its record needs. -/
structure RingEnt where
  cmpl : Bool := false
  cookie : Word := 0
  outcome : Option (Nat × Nat) := none
  deriving DecidableEq, Repr

/-- A submission ring (Table 9.7). -/
structure Ring where
  base : Addr := 0
  sizeLog2 : Nat := 0
  cq : Nat := 0
  pi : Word := 0
  ci : Word := 0
  done : Word := 0
  state : RingState := .disabled
  haltStatus : Nat := 0
  haltIndex : Nat := 0
  ents : List RingEnt := []
  ahead : List (List Byte) := []
  fetching : Bool := false
  noChanTold : Bool := false
  deriving DecidableEq, Repr

/-- A completion queue (Table 9.7). -/
structure Cq where
  base : Addr := 0
  sizeLog2 : Nat := 0
  vector : Nat := 0
  head : Word := 0
  tail : Word := 0
  enabled : Bool := false
  stalled : Bool := false
  /-- Rings whose record waits on the queue, first come first (R320, R322). -/
  waiters : List Nat := []
  deriving DecidableEq, Repr

/-- An event ring with its backlog (R489, R490); `queue` holds records on their way to the ring. -/
structure EvRing where
  base : Addr := 0
  sizeLog2 : Nat := 0
  vector : Nat := 0
  head : Word := 0
  tail : Word := 0
  enabled : Bool := false
  lost : Nat := 0
  lostFlag : Bool := false
  backlog : List Event := []
  queue : List Event := []
  deriving DecidableEq, Repr

/-- An MSI-X vector with its moderation (R492). -/
structure Vec where
  addr : Addr := 0
  data : Word := 0
  masked : Bool := true
  pba : Bool := false
  holdoff : Nat := 0
  count : Nat := 0
  /-- The device time at which the holdoff ends, while one runs (R492). -/
  holdEnd : Option Nat := none
  causes : Nat := 0
  deriving DecidableEq, Repr

/-- Which queue a cell belongs to (R370): a transfer's, by the transfer's place in the order of contexts, or a port's. -/
inductive QTag where
  | xfer (seq : Nat)
  | port (crew port : Nat)
  deriving DecidableEq, Repr

/-- A cell that is not free, beside its data, which stand in its item (R370 to R372): owner, owner-queue tag, fill count, item
flags, the next pointer and its copy, and the 16-byte parts still to be zeroed once it is released. -/
structure Cell where
  owner : Nat
  tag : QTag
  fill : Nat := 0
  first : Bool := false
  last : Bool := false
  te : Bool := false
  next : Option Nat := none
  next2 : Option Nat := none
  zero : Nat := 0
  deriving DecidableEq, Repr

/-- Head and tail of a queue, each stored twice; a mismatch found stops the queue until it is reset (R372, R388). -/
structure Ptrs where
  head : Option Nat := none
  head2 : Option Nat := none
  tail : Option Nat := none
  tail2 : Option Nat := none
  broken : Bool := false
  deriving DecidableEq, Repr

/-- An item of a cell queue (R371): data, te, the cells it still holds. -/
structure Item where
  data : List Byte
  te : Bool := false
  seq : Option Nat := none
  acked : Bool := false
  /-- Attempts of the transaction that carries it which ended in a line error (R160). -/
  tries : Nat := 0
  cells : List Nat := []
  len : Nat := 0
  deriving DecidableEq, Repr

/-- Receive-port states. -/
inductive RxpState where
  | closed | open | closing | stalled
  deriving DecidableEq, Repr

/-- A receive port (Table 11.11). -/
structure Rxp where
  ctx : Nat := 0
  packet : Bool := false
  vector : Nat := 0
  window : Nat := 0
  threshold : Nat := 0
  state : RxpState := .closed
  above : Bool := false
  reason : Nat := 0
  items : List Item := []
  ptrs : Ptrs := {}
  word : Nat := 0
  waitPops : Nat := 0
  dropped : Nat := 0
  emptyPops : Nat := 0
  resyncs : Nat := 0
  xfer : Option Nat := none
  deriving DecidableEq, Repr

/-- `COX_CREW_STAT` of a crew on one trunk (Table 7.11). -/
structure CoxStat where
  late : Nat := 0
  missed : Nat := 0
  failed : Nat := 0
  carry : Nat := 0
  deriving DecidableEq, Repr

/-- What one function and its crew hold (chapters 8, 9, 11 and 15); number 0 is the manager. -/
structure Crew where
  st : CrewState := .absent
  bme : Bool := false
  bcast : Bool := false
  bcastCounted : Bool := false
  resetDropped : Nat := 0
  extraTc : Tab Nat := []
  extraCells : Nat := 0
  extraQueues : Nat := 0
  share : FReg (Nat × Nat) := ⟨(0, 0), (0, 0)⟩
  mboxUp : Mbox := {}
  mboxDn : Mbox := {}
  rings : Tab Ring := []
  cqs : Tab Cq := []
  evt : EvRing := {}
  vecs : Tab Vec := []
  rxps : Tab Rxp := []
  stat : Tab CoxStat := []
  epmSel : Nat := 0
  bindReason : Nat := 0
  ringPtr : Nat := 0
  noWrites : Bool := false
  flrWait : Bool := false
  deriving DecidableEq, Repr

/-- CRW command engine (Table 8.10). -/
structure CrwCmd where
  trunk : Nat := 0
  resource : Nat := 0
  ep : Nat := 0
  addr : Nat := 0
  amount : Nat := 0
  weight : Nat := 0
  busy : Bool := false
  reason : Nat := 0
  lastOp : Nat := 0
  run : Option (Nat × Nat) := none
  revoke : Option Nat := none
  deriving DecidableEq, Repr

/-- Work opcodes (Table 9.2). -/
inductive WorkOp where
  | nop | control | bulkOut | bulkIn | oneOut | bcast
  deriving DecidableEq, Repr

/-- What a controller's own control transfer is for. -/
inductive CtlUse where
  | attach (trunk : Nat)
  | rosCmd
  | wakeMask (trunk hub port : Nat)
  | prune (trunk hub : Nat)
  | readmit (trunk hub : Nat)
  | status (trunk hub : Nat)
  | portOff (trunk hub port : Nat)
  deriving DecidableEq, Repr

/-- Where a transfer comes from. -/
inductive Origin where
  | ring (crew ring count : Nat)
  | ctl (use : CtlUse)
  | port (crew port : Nat)
  deriving DecidableEq, Repr

/-- Stage of a control transfer (R169). -/
inductive CtlStage where
  | setup | data | status
  deriving DecidableEq, Repr

/-- A transfer in its transfer context (R313). -/
structure Xfer where
  seq : Nat
  crew : Nat
  origin : Origin
  op : WorkOp
  trunk : Nat
  ctx : Option Nat := none
  addr : Nat := 0
  ep : Nat := 0
  hub : Nat := 0
  urgent : Bool := false
  length : Nat := 0
  buf : Addr := 0
  chain : Bool := false
  /-- The data segments known: of a chain, those the channel's own walk has read (R338). -/
  links : List (Addr × Nat) := []
  linkAddr : Addr := 0
  linksRead : Nat := 0
  /-- Bytes in the data links of the fetcher's walk so far (R310). -/
  linkSum : Nat := 0
  chainOver : Bool := false
  /-- The channel's walk waits for a link, and has read the last one (R338). -/
  walking : Bool := false
  walkEnd : Bool := false
  ready : Bool := true
  setup : List Byte := []
  nakFrames : Nat := 0
  cookie : Word := 0
  bytes : Nat := 0
  queue : Bool := false
  items : List Item := []
  ptrs : Ptrs := {}
  /-- The item being written, and its cells (R371). -/
  partialItem : List Byte := []
  partCells : List Nat := []
  asked : Nat := 0
  got : Nat := 0
  written : Nat := 0
  released : Nat := 0
  credits : Nat := 0
  stage : CtlStage := .setup
  tag : Nat := 0
  tagged : Bool := false
  e : Bool := false
  t : Bool := false
  dataIn : List Byte := []
  ended : Bool := false
  fin : Option Nat := none
  naks : Nat := 0
  nakFrame : Option Nat := none
  progFrame : Option Nat := none
  hold : Nat := 0
  attempts : Nat := 0
  stopping : Option Nat := none
  channel : Option Nat := none
  bseq : Option Nat := none
  listed : Bool := false
  deriving DecidableEq, Repr

/-- The cell pool (R370, Table 11.10): the cells that are not free, by number; cell n lies in bank n mod 4. -/
structure Cells where
  table : List (Nat × Cell) := []
  corr : Tab Nat := []
  mismatch : Nat := 0
  eccResets : Nat := 0
  epmCorr0 : Nat := 0
  epmCorr1 : Nat := 0
  deriving DecidableEq, Repr

/-- Channel states. -/
inductive ChState where
  | disabled | running | halted | stopping
  deriving DecidableEq, Repr

/-- A completed stream descriptor whose completion is still to be written. -/
structure StreamRec where
  ctx : Nat := 0
  run : Bool := false
  status : Nat
  bytes : Nat := 0
  count : Nat := 1
  cursor : Word := 0
  frame : Nat := 0
  stamp : Nat := 0
  irq : Bool := false
  flush : Bool := false
  deriving DecidableEq, Repr

/-- A DMA channel (Table 10.10). -/
structure Ch where
  ringBase : Addr := 0
  sizeLog2 : Nat := 0
  record : Bool := false
  dirOut : Bool := false
  vector : Nat := 0
  pi : Word := 0
  ci : Word := 0
  circBase : Addr := 0
  w : Nat := 0
  cursor : Word := 0
  cqBase : Addr := 0
  cqSizeLog2 : Nat := 0
  cqHead : Word := 0
  cqTail : Word := 0
  state : ChState := .disabled
  ownWait : Bool := false
  cqStalled : Bool := false
  haltStatus : Nat := 0
  haltIndex : Nat := 0
  desc : Option (List Byte) := none
  fetching : Bool := false
  staged : Option (List Byte) := none
  /-- The completed descriptor's write-back waits to be issued (R349). -/
  back : Bool := false
  srcAsked : Bool := false
  pend : List Nat := []
  due : Option StreamRec := none
  staging : List Byte := []
  inFlight : List (Nat × Nat × Option (List Byte)) := []
  serve : Option Nat := none
  moved : Nat := 0
  /-- The place in its crew's order of the transfer whose service turn was used up last (R339). -/
  last : Nat := 0
  deriving DecidableEq, Repr

/-- One requester of an arbiter (Table 12.8). -/
structure ArbReq where
  level : Nat
  burst : Nat
  starved : Bool := false
  cut : Bool := false
  /-- It has overstayed and is about to be cut off (R400). -/
  cutDue : Bool := false
  grants : Nat := 0
  waits : Tab Nat := []
  starvedTold : Bool := false
  deriving DecidableEq, Repr

/-- A tenure (R398): the holder and the units left; idle counts its cycles without a unit, `used` tells that the unit of this
cycle has been used. -/
structure Tenure where
  req : Nat
  left : Nat
  idle : Nat := 0
  used : Bool := false
  deriving DecidableEq, Repr

/-- One arbiter (Table 12.8); pointers at key bank*4 + level, tenures per bank; `seen` holds, per bank, the requests as they
stood at the end of the last cycle (R395). -/
structure Arb where
  starve : Nat := 4096
  hold : Nat := 64
  ptr : Tab Nat := []
  reqs : List (Nat × ArbReq) := []
  holder : List (Nat × Tenure) := []
  suspended : List (Nat × Tenure) := []
  seen : Tab (List Nat) := []
  deriving DecidableEq, Repr

/-- Pair states (Table 14.2). -/
inductive PairState where
  | down | unpaired | joining | mirrored | unmirrored
  deriving DecidableEq, Repr

/-- A closed catch record kept until it is acknowledged (R448). -/
structure CatchRec where
  frame : Nat
  entries : List CatchEntry
  close : CatchClose
  deriving DecidableEq, Repr

/-- A ledger entry (Table 14.4). -/
structure Ledger where
  crew : Nat
  ring : Nat
  index : Nat
  cookie : Word
  acked : Nat
  status : Nat
  deriving DecidableEq, Repr

/-- A packet to be sent again after a changeover (R457). -/
structure Resend where
  entry : CatchEntry
  viaOcc : Bool := false
  attempts : Nat := 0
  outcome : Option Nat := none
  acked : Nat := 0
  deriving DecidableEq, Repr

/-- Tandem pair (chapter 14). -/
structure Tdm where
  enable : Bool := false
  pair : PairState := .down
  active : Bool := false
  fenced : Bool := false
  lag : Bool := false
  fenceIn : Bool := false
  fenceOut : Bool := false
  fenceHold : Bool := false
  epoch : Nat := 0
  epochValid : Bool := false
  maskRx : Nat := 0
  maskTx : Nat := 0
  partner : Option PairBlock := none
  partnerActive : Bool := false
  partnerState : Nat := 0
  isMatch : Bool := false
  closed : Nat := 0
  acked : Nat := 0
  size : Nat := 0
  kept : List CatchRec := []
  mirror : List CatchEntry := []
  fullDue : Bool := false
  fullFrame : Option Nat := none
  allow : List CatchEntry := []
  rxEntries : List CatchEntry := []
  base : List CatchEntry := []
  rxRecord : List CatchEntry := []
  rxFrame : Option Nat := none
  rxNak : Option Nat := none
  hbRun : Nat := 0
  hbTotal : Nat := 0
  hbGot : Bool := false
  hbClear : Nat := 0
  blockGot : Bool := false
  wireGot : Bool := false
  mirroredAtHb : Bool := false
  lost : Bool := false
  refused : Bool := false
  changeoverDue : Bool := false
  handover : Bool := false
  handFrame : Option Nat := none
  crcBad : Nat := 0
  resends : Nat := 0
  /-- Next block number of each channel, and the lane after the one used last (R437). -/
  txNum : Tab Nat := []
  txLane : Nat := 0
  /-- Block numbers of the catch entries received. -/
  rxNums : List Nat := []
  claimFrame : Nat := 0
  ledger : List Ledger := []
  ledgerSel : Nat := 0
  xferBase : List (Nat × CatchEntry) := []
  resend : List Resend := []
  skewed : Bool := false
  deriving DecidableEq, Repr

/-- States of the test access port (IEEE 1149.1, R521). -/
inductive TapState where
  | testLogicReset | runTestIdle
  | selectDr | captureDr | shiftDr | exit1Dr | pauseDr | exit2Dr | updateDr
  | selectIr | captureIr | shiftIr | exit1Ir | pauseIr | exit2Ir | updateIr
  deriving DecidableEq, Repr

/-- The test access port: its state, the register an instruction has selected (0: the identification code), and the bits of
the scan in progress, the next one out first (R521). -/
structure Jtag where
  tap : TapState := .testLogicReset
  sel : Fin 4 := 0
  bits : List Bool := []
  deriving DecidableEq, Repr

/-- The whole block. -/
structure State where
  pins : Pins := {}
  straps : Straps := ⟨false, false, false⟩
  fuse : Fuses := {}
  shadow : Fuses := {}
  pwr : Pwr := {}
  cal : Cal := {}
  img : Img := {}
  pci : Pci := {}
  tim : Tim := {}
  trks : Tab Trk := []
  ros : Ros := {}
  ctxs : Tab Ctx := []
  cox : Cox := {}
  crews : Tab Crew := []
  cmd : CrwCmd := {}
  fetchPtr : Nat := 0
  xfers : List (Nat × Xfer) := []
  seq : Nat := 0
  cells : Cells := {}
  chs : Tab Ch := []
  arbs : Tab Arb := []
  tdm : Tdm := {}
  jtag : Jtag := {}
  frame : Nat := 0
  stage : List (Nat × Event) := []
  freeCtr : Nat := 0
  out : List Output := []
  pending : List Instr := []
  deriving DecidableEq, Repr

/-- The machine right after reset: a power-on reset released, S1 ended, PERST_N still asserted, no image
applied (logs 3 and 4). -/
def State.reset : State := {}

end Sys2Proof.Machine
end

