-- ==== Sys2Proof/Machine/Table.lean ====
section
/-! DEFINITION. Operations on sparse tables and the accessors of the state built on them. -/

namespace Sys2Proof

/-- Look a key up in a keyed list. -/
def Keyed.find {α : Type} : List (Nat × α) → Nat → Option α
  | [], _ => none
  | (j, v) :: t, k => if k = j then some v else Keyed.find t k

/-- Insert or replace, keys rising. -/
def Keyed.insert {α : Type} (k : Nat) (v : α) : List (Nat × α) → List (Nat × α)
  | [] => [(k, v)]
  | (j, w) :: t =>
    if k < j then (k, v) :: (j, w) :: t
    else if k = j then (k, v) :: t
    else (j, w) :: Keyed.insert k v t

/-- Remove a key. -/
def Keyed.erase {α : Type} (k : Nat) (t : List (Nat × α)) : List (Nat × α) :=
  t.filter (fun e => e.1 ≠ k)

/-- The value at key `k`; `d` where the table lists none. -/
def Tab.get {α : Type} (d : α) (t : Tab α) (k : Nat) : α :=
  match Keyed.find t k with
  | some v => v
  | none => d

/-- Write `v` at key `k`, keeping the canonical form: a value equal to the default leaves no entry. -/
def Tab.put {α : Type} [DecidableEq α] (d : α) (k : Nat) (v : α) (t : Tab α) : Tab α :=
  if v = d then Keyed.erase k t else Keyed.insert k v t

/-- Change the value at key `k`. -/
def Tab.upd {α : Type} [DecidableEq α] (d : α) (k : Nat) (f : α → α) (t : Tab α) : Tab α :=
  Tab.put d k (f (Tab.get d t k)) t

/-- The canonical form: keys strictly rising, no entry equal to the default. -/
def Tab.wf {α : Type} [DecidableEq α] (d : α) : Tab α → Bool
  | [] => true
  | (j, v) :: t => decide (v ≠ d) && t.all (fun e => decide (j < e.1)) && Tab.wf d t

/-- The lowest number below `n` that is no key, counted from `i`. -/
def Keyed.lowestFree {α : Type} (t : List (Nat × α)) : Nat → Nat → Option Nat
  | 0, _ => none
  | n + 1, i => if (Keyed.find t i).isNone then some i else Keyed.lowestFree t n (i + 1)

namespace Machine

/-- Trunk `n`. -/
def State.trk (s : State) (n : Nat) : Trk := Tab.get {} s.trks n
/-- Replace trunk `n`. -/
def State.setTrk (s : State) (n : Nat) (t : Trk) : State := { s with trks := Tab.put {} n t s.trks }
/-- Change trunk `n`. -/
def State.updTrk (s : State) (n : Nat) (f : Trk → Trk) : State := s.setTrk n (f (s.trk n))
/-- Hub at position `p`. -/
def Trk.hub (t : Trk) (p : Nat) : Hub := Tab.get {} t.hubs p
/-- Change the hub at position `p`. -/
def Trk.updHub (t : Trk) (p : Nat) (f : Hub → Hub) : Trk := { t with hubs := Tab.upd {} p f t.hubs }
/-- Crew `k`; 0 is the manager. -/
def State.crew (s : State) (k : Nat) : Crew := Tab.get {} s.crews k
/-- Replace crew `k`. -/
def State.setCrew (s : State) (k : Nat) (c : Crew) : State := { s with crews := Tab.put {} k c s.crews }
/-- Change crew `k`. -/
def State.updCrew (s : State) (k : Nat) (f : Crew → Crew) : State := s.setCrew k (f (s.crew k))
/-- Endpoint context `c`. -/
def State.ctx (s : State) (c : Nat) : Ctx := Tab.get {} s.ctxs c
/-- Replace endpoint context `c`. -/
def State.setCtx (s : State) (c : Nat) (x : Ctx) : State := { s with ctxs := Tab.put {} c x s.ctxs }
/-- Change endpoint context `c`. -/
def State.updCtx (s : State) (c : Nat) (f : Ctx → Ctx) : State := s.setCtx c (f (s.ctx c))
/-- DMA channel `c`. -/
def State.ch (s : State) (c : Nat) : Ch := Tab.get {} s.chs c
/-- Replace DMA channel `c`. -/
def State.setCh (s : State) (c : Nat) (x : Ch) : State := { s with chs := Tab.put {} c x s.chs }
/-- Change DMA channel `c`. -/
def State.updCh (s : State) (c : Nat) (f : Ch → Ch) : State := s.setCh c (f (s.ch c))
/-- Arbiter `a`. -/
def State.arb (s : State) (a : Nat) : Arb := Tab.get {} s.arbs a
/-- Change arbiter `a`. -/
def State.updArb (s : State) (a : Nat) (f : Arb → Arb) : State :=
  { s with arbs := Tab.put {} a (f (s.arb a)) s.arbs }
/-- Transfer context `i`, if in use. -/
def State.xfer (s : State) (i : Nat) : Option Xfer := Keyed.find s.xfers i
/-- Replace transfer context `i`. -/
def State.setXfer (s : State) (i : Nat) (x : Xfer) : State := { s with xfers := Keyed.insert i x s.xfers }
/-- Change transfer context `i` if in use. -/
def State.updXfer (s : State) (i : Nat) (f : Xfer → Xfer) : State :=
  match s.xfer i with
  | some x => s.setXfer i (f x)
  | none => s
/-- Ring `r` of a crew. -/
def Crew.ring (c : Crew) (r : Nat) : Ring := Tab.get {} c.rings r
/-- Change ring `r` of a crew. -/
def Crew.updRing (c : Crew) (r : Nat) (f : Ring → Ring) : Crew := { c with rings := Tab.upd {} r f c.rings }
/-- Completion queue `q` of a crew. -/
def Crew.cq (c : Crew) (q : Nat) : Cq := Tab.get {} c.cqs q
/-- Change completion queue `q` of a crew. -/
def Crew.updCq (c : Crew) (q : Nat) (f : Cq → Cq) : Crew := { c with cqs := Tab.upd {} q f c.cqs }
/-- MSI-X vector `v` of a function. -/
def Crew.vec (c : Crew) (v : Nat) : Vec := Tab.get {} c.vecs v
/-- Change vector `v`. -/
def Crew.updVec (c : Crew) (v : Nat) (f : Vec → Vec) : Crew := { c with vecs := Tab.upd {} v f c.vecs }
/-- Receive port `p`. -/
def Crew.rxp (c : Crew) (p : Nat) : Rxp := Tab.get {} c.rxps p
/-- Change receive port `p`. -/
def Crew.updRxp (c : Crew) (p : Nat) (f : Rxp → Rxp) : Crew := { c with rxps := Tab.upd {} p f c.rxps }
/-- Ring `r` of crew `k`. -/
def State.ring (s : State) (k r : Nat) : Ring := (s.crew k).ring r
/-- Change ring `r` of crew `k`. -/
def State.updRing (s : State) (k r : Nat) (f : Ring → Ring) : State := s.updCrew k (·.updRing r f)
/-- Completion queue `q` of crew `k`. -/
def State.cq (s : State) (k q : Nat) : Cq := (s.crew k).cq q
/-- Change completion queue `q` of crew `k`. -/
def State.updCq (s : State) (k q : Nat) (f : Cq → Cq) : State := s.updCrew k (·.updCq q f)
/-- Receive port `p` of crew `k`. -/
def State.rxp (s : State) (k p : Nat) : Rxp := (s.crew k).rxp p
/-- Change receive port `p` of crew `k`. -/
def State.updRxp (s : State) (k p : Nat) (f : Rxp → Rxp) : State := s.updCrew k (·.updRxp p f)
/-- Roster entry `i`, if valid. -/
def State.entry (s : State) (i : Nat) : Option Entry := Keyed.find s.ros.entries i
/-- Replace roster entry `i`. -/
def State.setEntry (s : State) (i : Nat) (e : Entry) : State :=
  { s with ros := { s.ros with entries := Keyed.insert i e s.ros.entries } }
/-- Change roster entry `i` if valid. -/
def State.updEntry (s : State) (i : Nat) (f : Entry → Entry) : State :=
  match s.entry i with
  | some e => s.setEntry i (f e)
  | none => s

end Machine

end Sys2Proof
end

