-- ==== Sys2Proof/Machine/Events.lean ====
section
/-! DEFINITION. Raising events, the backlog and the event queue (R11, R487 to R490), MSI-X signalling
and moderation (R491, R492), output to the host under Bus Master Enable (R545), and `finish`, which
ends every meaning. -/

namespace Sys2Proof.Machine

/-- The 16-bit event code (Tables 3.13, 4.11, 5.17, 6.15, 7.12, 8.14, 9.8, 10.12, 11.12, 12.9, 13.9,
14.10, 15.5). -/
def EventName.code : EventName → Nat
  | .imgApplied => 0x1001
  | .imgSlotRejected => 0x1002
  | .imgLoaderState => 0x1003
  | .imgBpUnsupported => 0x1004
  | .imgPushRejected => 0x1005
  | .imgCrewReloaded => 0x1006
  | .imgStoreDone => 0x1007
  | .imgStoreFailed => 0x1008
  | .imgRollbackCommitted => 0x1009
  | .imgKeyProgrammed => 0x100A
  | .imgCalItemIgnored => 0x100B
  | .startDone => 0x2001
  | .pwrDomainFault => 0x2002
  | .calSaturated => 0x3001
  | .tempWarn => 0x3002
  | .tempAlarm => 0x3003
  | .tempClear => 0x3004
  | .vmonOutOfRange => 0x3005
  | .vmonClear => 0x3006
  | .thermalTrip => 0x3007
  | .lineStarted => 0x4001
  | .lineStopped => 0x4002
  | .lineFault => 0x4003
  | .lineLockLost => 0x4004
  | .lineRateChanged => 0x4005
  | .lineRateIncomplete => 0x4006
  | .linePolarityInverted => 0x4007
  | .lineResponderMismatch => 0x4008
  | .lineToggleResync => 0x4009
  | .lineLecWarn => 0x400A
  | .lineTecWarn => 0x400B
  | .lineLocate => 0x400C
  | .subtreePruned => 0x400D
  | .trunkQuarantined => 0x400E
  | .subtreeReadmitted => 0x400F
  | .lineLocateClear => 0x4010
  | .nodeNew => 0x5001
  | .nodeRestored => 0x5002
  | .nodeHeld => 0x5003
  | .nodeDetached => 0x5004
  | .nodeNoAddress => 0x5005
  | .rosterFull => 0x5006
  | .heldTableFull => 0x5007
  | .hubOnFunctionPort => 0x5008
  | .functionOnSpine => 0x5009
  | .nodeAttachFailed => 0x500A
  | .hubClaimed => 0x500B
  | .sleepEntered => 0x500C
  | .sleepAborted => 0x500D
  | .wakeReceived => 0x500E
  | .resumeDone => 0x500F
  | .hubEventsLost => 0x5010
  | .hubNoContext => 0x5011
  | .pollMissed => 0x6001
  | .pollFailed => 0x6002
  | .almEntryDropped => 0x6003
  | .almHubUnplaced => 0x6004
  | .almTailUnplaced => 0x6005
  | .crewCreated => 0x7001
  | .crewTornDown => 0x7002
  | .crewResetDone => 0x7003
  | .mbxReceived => 0x7004
  | .mbxAcked => 0x7005
  | .mbxDropped => 0x7006
  | .mbxSeqErr => 0x7007
  | .epGranted => 0x7008
  | .epRevoked => 0x7009
  | .quotaChanged => 0x700A
  | .crewGrantFailed => 0x700B
  | .ringHalted => 0x8001
  | .ringShutdownDone => 0x8002
  | .ringIndexInvalid => 0x8003
  | .cqStalled => 0x8004
  | .ringPermDenied => 0x8005
  | .dmaChHalted => 0x9001
  | .dmaChStopped => 0x9002
  | .dmaCqStalled => 0x9003
  | .dmaNoChannel => 0x9004
  | .dmaIndexInvalid => 0x9005
  | .cellQueueReset => 0xA001
  | .epmEccError => 0xA002
  | .rxpClosed => 0xA003
  | .arbStarved => 0xB001
  | .arbHolderCut => 0xB002
  | .timeSet => 0xC001
  | .timeLocked => 0xC002
  | .timeVigil => 0xC003
  | .timeFreeRun => 0xC004
  | .timeSourceChanged => 0xC005
  | .timeStepped => 0xC006
  | .timeBackstep => 0xC007
  | .pulseSkipped => 0xC008
  | .timeRefLost => 0xC009
  | .timeHopReset => 0xC00A
  | .pairUp => 0xD001
  | .pairProfileMismatch => 0xD002
  | .pairRoleConflict => 0xD003
  | .mirrorReady => 0xD004
  | .mirrorLag => 0xD005
  | .mirrorLagClear => 0xD006
  | .mirrorLost => 0xD007
  | .tdmWidthChanged => 0xD008
  | .tdmHbMissed => 0xD009
  | .tdmPartnerLost => 0xD00A
  | .changeover => 0xD00B
  | .changeoverRefused => 0xD00C
  | .claimFailed => 0xD00D
  | .claimLost => 0xD00E
  | .tdmFenced => 0xD00F
  | .splitEntered => 0xD010
  | .splitHealed => 0xD011
  | .splitEnded => 0xD012
  | .tdmTimeSkew => 0xD013
  | .tdmTailDown => 0xD014
  | .cfgReject => 0xE001

/-- Add, saturating at `max`. -/
def satAdd (max a b : Nat) : Nat := if a + b < max then a + b else max

/-- Raise an event to function `fn` in the current cycle (R488). -/
def raise (fn : Nat) (name : EventName) (trunk detail : Nat) (s : State) : State :=
  { s with stage := s.stage ++ [(fn, ⟨name, trunk, detail, s.tim.ns⟩)] }

/-- Raise an event to the manager with no trunk. -/
def raiseM (name : EventName) (detail : Nat) (s : State) : State := raise 0 name 255 detail s

/-- Raise an event to an owner and the manager: once when the owner is the manager (R487). -/
def raiseBoth (fn : Nat) (name : EventName) (trunk detail : Nat) (s : State) : State :=
  if fn = 0 then raise 0 name trunk detail s
  else raise 0 name trunk detail (raise fn name trunk detail s)

/-- Records in an event ring. -/
def EvRing.used (e : EvRing) : Nat := (e.tail - e.head).toNat

/-- The ring can take one more record beside those on their way (R490). -/
def EvRing.ready (e : EvRing) (bme : Bool) : Bool :=
  e.enabled && bme && e.backlog.isEmpty && decide (e.used + e.queue.length < 2 ^ e.sizeLog2)

/-- An event reaches its function: to the ring, or to the backlog of 64, or dropped (R490). -/
def Crew.pushEvent (c : Crew) (ev : Event) : Crew :=
  if c.evt.ready c.bme then { c with evt := { c.evt with queue := c.evt.queue ++ [ev] } }
  else if c.evt.backlog.length < 64 then { c with evt := { c.evt with backlog := c.evt.backlog ++ [ev] } }
  else { c with evt := { c.evt with lost := satAdd 0xFFFF c.evt.lost 1, lostFlag := true } }

/-- Insert by ascending code, after those of equal code (R489). -/
def insertEvent (x : Nat × Event) : List (Nat × Event) → List (Nat × Event)
  | [] => [x]
  | y :: t => if x.2.name.code < y.2.name.code then x :: y :: t else y :: insertEvent x t

/-- The events of one cycle in ascending code order. -/
def sortEvents (l : List (Nat × Event)) : List (Nat × Event) := l.foldl (fun acc x => insertEvent x acc) []

/-- Deliver the cycle's events. -/
def commitEvents (s : State) : State :=
  (sortEvents s.stage).foldl (fun s x => s.updCrew x.1 (·.pushEvent x.2)) { s with stage := [] }

/-- The end of a meaning: the cycle's events are delivered, and the machine goes on. -/
def finish (s : State) : Host.Outcome State Fault Refusal := .next (commitEvents s)

/-- Put something on an interface. -/
def emit (o : Output) (s : State) : State := { s with out := s.out ++ [o] }

/-! Blocks of the tandem link (R437, Table 14.1). -/

/-- A channel's code. -/
inductive Channel where
  | heartbeat | catchAck | catchRec | relay | time | pair
  deriving DecidableEq, Repr
/-- The code of Table 14.1. -/
def Channel.code : Channel → Nat
  | .heartbeat => 1 | .catchAck => 2 | .catchRec => 3 | .relay => 4 | .time => 5 | .pair => 6
/-- The lanes of a mask, ascending. -/
def lanesOf (m : Nat) : List Nat := (List.range 4).filter (fun i => m / 2 ^ i % 2 == 1)
/-- The lane of the next block: round-robin over the receive mask the partner reported last, over all four before it has
reported one (log 68). -/
def Tdm.nextLane (m : Tdm) : Nat :=
  let l := lanesOf (if m.maskTx % 16 = 0 then 15 else m.maskTx)
  (l.find? (fun i => decide (m.txLane ≤ i))).getD (l.headD 0)
/-- One block goes out on its lane with its channel's next number (R437). -/
def sendBlock (ch : Channel) (data : List Byte) (s : State) : State :=
  let i := s.tdm.nextLane
  let n := Tab.get 0 s.tdm.txNum ch.code
  emit (.tdmBlock i ch.code n data)
    { s with tdm := { s.tdm with txLane := (i + 1) % 4, txNum := Tab.put 0 ch.code ((n + 1) % 4096) s.tdm.txNum } }
/-- A message goes out in `n` blocks, whose data the manual does not lay out. -/
def sendMsg (ch : Channel) (n : Nat) (o : Output) (s : State) : State :=
  (List.range n).foldl (fun s _ => sendBlock ch [] s) (emit o s)
/-- Bytes go out in blocks of 32. -/
def sendBytes (ch : Channel) (b : List Byte) (s : State) : State :=
  (List.range ((b.length + 31) / 32)).foldl (fun s i => sendBlock ch ((b.drop (32 * i)).take 32) s) s
/-- The blocks of a RELAY message with a payload of `len` bytes. -/
def relayLen (len : Nat) : Nat := (len + 31) / 32 + 1 + (Config.relayBlocks len).val

/-- The bit of AER's uncorrectable error status, where PCI Express puts it (PRESUMED, log 70). -/
def AerKind.bit : AerKind → Nat
  | .poisoned => 12
  | .completionTimeout => 14
  | .completerAbort => 15
  | .unsupportedRequest => 20
  | .internal => 22

/-- An error is logged in the AER registers of the function it can be attributed to, else of the manager function
(R269). -/
def logAer (fn : Option Nat) (addr : Addr) (kind : AerKind) (s : State) : State :=
  let f := fn.getD 0
  emit (.aer f addr kind)
    { s with pci := { s.pci with aer := Tab.upd 0 f (fun v => v ||| (1#32 <<< kind.bit)) s.pci.aer } }

/-- A host request waits for its grant, behind those before it (R393, R545). -/
def enqueue (req fn : Nat) (b : HostBody) (s : State) : State :=
  { s with pci := { s.pci with queue := s.pci.queue ++ [⟨req, fn, b⟩] } }
/-- A vector's message waits for its grant. -/
def Pci.hasMessage (p : Pci) (fn v : Nat) : Bool := p.queue.any (fun q => q.fn == fn && q.body == .msix v)

/-- A vector is to send its message: it stays pending while masked or while Bus Master Enable is 0, and otherwise goes
through the completion writer (R492, R545, Table 12.3). -/
def sendVector (fn v : Nat) (s : State) : State :=
  let x := (s.crew fn).vec v
  let t := s.updCrew fn (·.updVec v (fun x => { x with pba := true, causes := 0 }))
  if x.masked || !(s.crew fn).bme || s.pci.hasMessage fn v then t else enqueue 33 fn (.msix v) t

/-- A message is issued, and its vector's holdoff begins (R492). -/
def issueMessage (fn v : Nat) (s : State) : State :=
  emit (.msix fn v) (s.updCrew fn (·.updVec v (fun x => { x with
    pba := false, holdEnd := if x.holdoff = 0 then none else some (s.tim.ns + x.holdoff * 1000) })))

/-- A cause signals a vector (R492): coalesced during a holdoff unless the count is reached. -/
def signalVector (fn v : Nat) (s : State) : State :=
  let x := (s.crew fn).vec v
  if x.holdEnd.isSome then
    if 0 < x.count ∧ x.count ≤ x.causes + 1 then sendVector fn v s
    else s.updCrew fn (·.updVec v (fun x => { x with causes := x.causes + 1 }))
  else sendVector fn v s

/-- The next open value (log 1): a number nothing constrains; the counter moves on. -/
def freeValue (s : State) : Nat × State := (Config.freeNat s.freeCtr, { s with freeCtr := s.freeCtr + 1 })

/-- `CFG_REJECT` to the function whose write was dropped, with the offset it used and the crew of the
window, 0 for BAR0 (R509, Table 15.4). -/
def cfgReject (fn offset : Nat) (s : State) : State :=
  raise fn .cfgReject 255 (offset + fn * 0x1000000) s

end Sys2Proof.Machine
end

