-- ==== Sys2Proof/Machine/Flags.lean ====
section
/-! DEFINITION. Status and reason codes (Tables 0.5, 3.7, 7.10, 8.4, 10.5, 11.4). -/

namespace Sys2Proof.Machine

/-! Completion status codes (Table 0.5, R8). -/
def stOk : Nat := 0x00
def stShort : Nat := 0x01
def stNakTimeout : Nat := 0x02
def stStall : Nat := 0x03
def stCrcRetry : Nat := 0x04
def stPruned : Nat := 0x05
def stQuarantined : Nat := 0x06
def stAborted : Nat := 0x07
def stChainLimit : Nat := 0x08
def stHostMemErr : Nat := 0x09
def stNotExecuted : Nat := 0x0A
def stNoData : Nat := 0x0B
def stSuspended : Nat := 0x0C
def stSuspendAborted : Nat := 0x0D
def stUrgentExpired : Nat := 0x0E
def stCrewReset : Nat := 0x0F
def stToggleResync : Nat := 0x10
def stOverrun : Nat := 0x11

/-- `OK` and `SHORT` are the successful completions (R9). -/
def isSuccess (st : Nat) : Bool := st == stOk || st == stShort

/-! Image reason codes (Table 3.7). -/
def imNone : Nat := 0x00
def imKeyUnprogrammed : Nat := 0x01
def imBadMagic : Nat := 0x02
def imBadFormat : Nat := 0x03
def imKeyHash : Nat := 0x04
def imSignature : Nat := 0x05
def imSectionHash : Nat := 0x06
def imRollback : Nat := 0x07
def imBpUnsupported : Nat := 0x08
def imStructure : Nat := 0x09
def imDelta : Nat := 0x0A
def imHostRead : Nat := 0x0B
def imBusy : Nat := 0x0C
def imState : Nat := 0x0D
def imFlashVerify : Nat := 0x0E
def imNotTried : Nat := 0x0F
def imDomainFault : Nat := 0x10

/-! Almanac reason codes (Table 7.10). -/
def alOk : Nat := 0
def alBusy : Nat := 1
def alNotPeriodic : Nat := 2
def alExists : Nat := 3
def alNoEntry : Nat := 4
def alBadArg : Nat := 5
def alOverBudget : Nat := 6
def alNoFit : Nat := 7

/-! Crew command reason codes (Table 8.4). -/
def cwOk : Nat := 0
def cwBusy : Nat := 1
def cwNoSection : Nat := 2
def cwState : Nat := 3
def cwNoVf : Nat := 4
def cwOverPool : Nat := 5
def cwOwned : Nat := 6
def cwNoEndpoint : Nat := 7
def cwBadArg : Nat := 8
def cwNoPerm : Nat := 9
def cwEpmSmall : Nat := 0xA
def cwQuota : Nat := 0xB

/-! Binding reason codes (Table 10.5) and port open reasons (Table 11.4). -/
def bdOk : Nat := 0
def bdNotOwned : Nat := 1
def bdKind : Nat := 2
def bdBound : Nat := 3
def bdLimit : Nat := 4
def poOk : Nat := 0
def poNotOwned : Nat := 1
def poKind : Nat := 2
def poBusy : Nat := 3
def poQuota : Nat := 4
def poBadArg : Nat := 5

/-- Truth as a bit. -/
def bit (b : Bool) : Nat := if b then 1 else 0

end Sys2Proof.Machine
end

