-- ==== Sys2Proof/Machine/Operands.lean ====
section
/-! DEFINITION. Byte fields, the CRCs (R151), packet headers (Table 5.4), and the quantities of a
transaction (R159, Table 7.3) with the placement test of R235. -/

namespace Sys2Proof.Machine

/-! Little-endian fields of byte strings (R4, R72). -/

/-- Byte `o` of a string, 0 beyond its end. -/
def byteAt (b : List Byte) (o : Nat) : Nat := (b.getD o 0).toNat
/-- `n` bytes from offset `o` as a number, the lowest address in bits [7:0]. -/
def leAt (b : List Byte) (o : Nat) : Nat → Nat
  | 0 => 0
  | n + 1 => byteAt b o + 256 * leAt b (o + 1) n
/-- `n` bytes from offset `o`. -/
def slice (b : List Byte) (o n : Nat) : List Byte := (b.drop o).take n
/-- A number as `n` bytes, least significant first. -/
def leBytes : Nat → Nat → List Byte
  | 0, _ => []
  | n + 1, v => BitVec.ofNat 8 v :: leBytes n (v / 256)
/-- Every byte of a part is zero. -/
def allZero (b : List Byte) : Bool := b.all (fun x => x == 0)
/-- Bits [hi:lo] of a word as a number. -/
def bits (w : Word) (lo len : Nat) : Nat := (w.toNat / 2 ^ lo) % 2 ^ len
/-- Bit `i` of a word. -/
def bitOf (w : Word) (i : Nat) : Bool := w.getLsbD i
/-- Two's complement: the signed value of the low `n` bits. -/
def signed (n v : Nat) : Int := if v % 2 ^ n < 2 ^ (n - 1) then (v % 2 ^ n : Nat) else (v % 2 ^ n : Nat) - (2 ^ n : Nat)
/-- Round up. -/
def ceilDiv (a b : Nat) : Nat := (a + b - 1) / b

/-! CRCs (R151). -/

/-- One bit step of the CRC-8, polynomial 0x07. -/
def crc8Bit (c : Byte) : Byte := if c.getLsbD 7 then (c <<< 1) ^^^ 0x07 else c <<< 1
/-- One byte step of the CRC-8. -/
def crc8Byte (c x : Byte) : Byte := crc8Bit (crc8Bit (crc8Bit (crc8Bit (crc8Bit (crc8Bit (crc8Bit (crc8Bit (c ^^^ x))))))))
/-- CRC-8 over header bytes: initial value 0, no reflection, no final XOR. -/
def crc8 (b : List Byte) : Byte := b.foldl crc8Byte 0
/-- One bit step of the reflected CRC-32, polynomial 0x04C1_1DB7. -/
def crc32Bit (c : Word) : Word := if c.getLsbD 0 then (c >>> 1) ^^^ 0xEDB88320 else c >>> 1
/-- One byte step of the CRC-32. -/
def crc32Byte (c : Word) (x : Byte) : Word :=
  crc32Bit (crc32Bit (crc32Bit (crc32Bit (crc32Bit (crc32Bit (crc32Bit (crc32Bit (c ^^^ x.setWidth 32))))))))
/-- CRC-32 over payload bytes: the IEEE 802.3 frame check sequence. -/
def crc32 (b : List Byte) : Word := b.foldl crc32Byte 0xFFFFFFFF ^^^ 0xFFFFFFFF

/-! Packet headers (Table 5.4) and types (Table 5.3). -/

/-- Packet type of Table 5.3. -/
def ptSof : Nat := 0x1
/-- Packet type of Table 5.3. -/
def ptTokenIn : Nat := 0x2
/-- Packet type of Table 5.3. -/
def ptDataP : Nat := 0x3
/-- Packet type of Table 5.3. -/
def ptDataB : Nat := 0x4
/-- Packet type of Table 5.3. -/
def ptBurstAck : Nat := 0x5
/-- Packet type of Table 5.3. -/
def ptAck : Nat := 0x6
/-- Packet type of Table 5.3. -/
def ptNak : Nat := 0x7
/-- Packet type of Table 5.3. -/
def ptStall : Nat := 0x8
/-- Packet type of Table 5.3. -/
def ptSetup : Nat := 0x9
/-- Packet type of Table 5.3. -/
def ptHopReq : Nat := 0xA
/-- Packet type of Table 5.3. -/
def ptHopRsp : Nat := 0xB
/-- Packet type of Table 5.3. -/
def ptBcast : Nat := 0xC
/-- Packet type of Table 5.3. -/
def ptLrate : Nat := 0xD
/-- Packet type of Table 5.3. -/
def ptClaim : Nat := 0xE

/-- The 4 header bytes of a packet, byte 0 in bits [7:0]. -/
def mkHdr (ty : Nat) (rs te be : Bool) (len addr ep sq aux : Nat) : BitVec 32 :=
  BitVec.ofNat 32 (ty % 16 + bit rs * 16 + (len / 256) % 2 * 32 + bit te * 64 + bit be * 128
    + addr % 256 * 0x100 + (addr / 256) % 2 * 0x10000 + ep % 8 * 0x20000 + sq % 16 * 0x100000
    + (if len = 0 then aux else len) % 256 * 0x1000000)

def hdrType (h : BitVec 32) : Nat := bits h 0 4
def hdrTe (h : BitVec 32) : Bool := h.getLsbD 6
def hdrAddr (h : BitVec 32) : Nat := bits h 8 8 + 256 * bits h 16 1
def hdrEp (h : BitVec 32) : Nat := bits h 17 3
def hdrSq (h : BitVec 32) : Nat := bits h 20 4
def hdrToggle (h : BitVec 32) : Bool := h.getLsbD 20
def hdrAux (h : BitVec 32) : Nat := bits h 24 8
def hdrLen (h : BitVec 32) : Nat := bits h 24 8 + 256 * bits h 5 1
/-- The header bytes as sent. -/
def hdrBytes (h : BitVec 32) : List Byte := leBytes 4 h.toNat

/-- The packet of a header and a payload (R150, R151). -/
def linePkt (hdr payload : List Byte) : LinePkt :=
  { hdr := hdr, crc8 := crc8 hdr, payload := payload,
    crc32 := if payload.isEmpty then [] else leBytes 4 (crc32 payload).toNat }
/-- The header of an SOF (Table 5.5): the hubs set hop and loc_adj. -/
def sofHdr (frame quality time dlyIdx dly epoch : Nat) : List Byte :=
  [BitVec.ofNat 8 (ptSof + 16 * (quality % 4))] ++ leBytes 2 frame ++ leBytes 8 time
    ++ [0, BitVec.ofNat 8 dlyIdx] ++ leBytes 4 dly ++ leBytes 4 0 ++ [BitVec.ofNat 8 epoch, 0, 0]
/-- The SOF a line port sends (R154). -/
def sofPkt (frame quality time dlyIdx dly epoch : Nat) : LinePkt :=
  linePkt (sofHdr frame quality time dlyIdx dly epoch) []

/-- How a received packet fails its checks (Table 5.15). -/
inductive LineErr where
  | crc | framing | other | timeout
  deriving DecidableEq, Repr

/-- Types that carry a payload of the length in the header. -/
def carriesData (ty : Nat) : Bool := ty == ptDataP || ty == ptDataB || ty == ptBcast

/-- The payload length a header promises: the length field, or that of Table 5.3 (8 for SETUP, 4 for CLAIM; R199). -/
def hdrPayload (h : BitVec 32) : Nat :=
  let ty := hdrType h
  if carriesData ty then hdrLen h else if ty == ptSetup then 8 else if ty == ptClaim then 4 else 0

/-- The line error of a received packet before its address is looked at (R151, R153, R184, Table 5.15):
code violations, EOPA, length errors and reserved types are framing; then the CRCs. -/
def pktError (p : RxPkt) : Option LineErr :=
  let ty := hdrType p.hdr
  if p.framing || ty == 0 || ty == 0xF then some .framing
  else if crc8 (hdrBytes p.hdr) ≠ p.crc8 then some .crc
  else if decide (hdrPayload p.hdr ≠ p.payload.length) then some .framing
  else if !p.payload.isEmpty && decide (crc32 p.payload ≠ p.crc32) then some .crc
  else none

/-- A DATA_P, DATA_B or other answer too long for its endpoint is a length error (R184). -/
def tooLong (p : RxPkt) (maxPacket : Nat) : Bool := decide (maxPacket < p.payload.length)

/-- The downstream packets of a transaction, headers and payloads (Table 5.4). -/
def txnPackets (t : Txn) : List (BitVec 32 × List Byte) :=
  match t.kind with
  | .tokenP tg => [(mkHdr ptTokenIn t.rs false false 0 t.addr t.ep (bit tg) 0, [])]
  | .tokenB e c => [(mkHdr ptTokenIn t.rs false false 0 t.addr t.ep e (c - 1), [])]
  | .dataP tg b => [(mkHdr ptDataP t.rs false false b.length t.addr t.ep (bit tg) 0, b)]
  | .dataB ps => ps.zipIdx.map (fun x =>
      (mkHdr ptDataB (t.rs && x.2 == 0) x.1.2.1 (x.2 + 1 == ps.length) x.1.2.2.length t.addr t.ep x.1.1 0, x.1.2.2))
  | .setup tag b => [(mkHdr ptSetup false false false 0 t.addr t.ep 0 tag, b)]
  | .hopReq echo => [(mkHdr ptHopReq false false false 0 t.addr 0 0 echo, [])]
  | .bcast bseq b => [(mkHdr ptBcast false false false b.length bseq t.ep 0 0, b)]
  | .claim ep act => [(mkHdr ptClaim false false false 0 t.addr 0 0 0, [BitVec.ofNat 8 ep, BitVec.ofNat 8 act, 0, 0])]

/-! Durations in units of 0.1 us (R232, R234). -/

/-- Character time τ of a rate code (Table 5.1). -/
def tau (rate : Nat) : Nat := if rate = 0 then 2 else if rate = 1 then 4 else 8
/-- Characters of a packet with `n` payload bytes (R150). -/
def pktChars (n : Nat) : Nat := if n = 0 then 7 else 11 + n
/-- Characters of the downstream packets, one IDLE set between the packets of a burst (Table 5.6). -/
def downChars : TxnKind → Nat
  | .dataP _ b => pktChars b.length
  | .dataB ps => (ps.map (fun p => pktChars p.2.2.length)).sum + 2 * (ps.length - 1)
  | .setup _ b => pktChars b.length
  | .bcast _ b => pktChars b.length
  | .claim _ _ => pktChars 4
  | _ => 7
/-- Characters of the longest answer permitted, two IDLE sets between the packets of a burst (R159, R250);
`m` is the endpoint's longest packet. -/
def upChars (m : Nat) : TxnKind → Nat
  | .tokenP _ => pktChars m
  | .tokenB _ c => c * pktChars m + 4 * (c - 1)
  | .claim _ _ => pktChars 4
  | .bcast _ _ => 0
  | _ => 7

/-- The numbers of Table 7.3. -/
structure Quant where
  d : Nat
  e : Nat
  b : Nat
  cost : Nat
  deriving DecidableEq, Repr

/-- Quantities of a transaction at hop count `h` (for BCAST, `h` is the number of hubs of the trunk):
rate code, transceiver delay in ns, endpoint's longest packet (R159, R171, R234). -/
def quantities (rate dtxNs m h : Nat) (k : TxnKind) : Quant :=
  let td := downChars k * tau rate
  let d := td + 2 * tau rate
  match k with
  | .bcast _ _ =>
    let b := td + 16 * h + 2 + ceilDiv dtxNs 100 + 20
    ⟨d, td, b, d⟩
  | _ =>
    let e := td + 23 * (h - 1) + 18
    let b := td + 2 * (16 * h + 2) + ceilDiv (2 * dtxNs) 100 + 22 + upChars m k * tau rate + 20
    ⟨d, e, b, max d (b - e)⟩

/-- BCAST has no upstream reservation. -/
def hasUp : TxnKind → Bool
  | .bcast _ _ => false
  | _ => true

/-- Two half-open intervals meet. -/
def meets (a1 a2 b1 b2 : Nat) : Bool := decide (a1 < b2) && decide (b1 < a2)

/-- Neither interval of a candidate meets an interval of `r` (R235). -/
def noClash (o : Nat) (q : Quant) (up : Bool) (r : Resv) : Bool :=
  !(meets o (o + q.d) r.off (r.off + r.d))
    && !(up && r.up && meets (o + q.e) (o + q.b) (r.off + r.e) (r.off + r.b))

/-- Slots held at instant `t`. -/
def slotsAt (rs : List Resv) (t : Nat) : Nat :=
  (rs.filter (fun r => decide (r.off ≤ t) && decide (t < r.off + r.b))).length

/-- A 33rd slot is never needed while the candidate holds its own (R235). -/
def slotsFit (o b : Nat) (rs : List Resv) : Bool :=
  decide (slotsAt rs o < 32)
    && rs.all (fun r => !(decide (o ≤ r.off) && decide (r.off < o + b)) || decide (slotsAt rs r.off < 32))

/-- The issue conditions of R235 at offset `o`. -/
def fitsAt (rs : List Resv) (q : Quant) (up : Bool) (o : Nat) : Bool :=
  rs.all (noClash o q up) && slotsFit o q.b rs && decide (o + q.b ≤ 9700)

/-- The conditions of R235 but for the slots. -/
def clearAt (rs : List Resv) (q : Quant) (up : Bool) (o : Nat) : Bool :=
  rs.all (noClash o q up) && decide (o + q.b ≤ 9700)

/-- The first offset from `o` on that passes a test and ends a downstream occupancy of `d` by `lim`. -/
def firstOff (ok : Nat → Bool) (d lim : Nat) : Nat → Nat → Option Nat
  | 0, _ => none
  | fuel + 1, o =>
    if lim < o + d then none
    else if ok o then some o
    else firstOff ok d lim fuel (o + 1)

/-- The reservation a transaction at `o` holds. -/
def Quant.resv (q : Quant) (o : Nat) (up : Bool) (planned : Option Nat) : Resv := ⟨o, q.d, q.e, q.b, up, planned⟩

end Sys2Proof.Machine
end

