-- ==== Sys2Proof/Machine/Ops.lean ====
section
/-! DEFINITION. The operations many commands share: which block answers, the image's quotas, reachability
and hop counts, cells, host reads and tags, completing and aborting transfers, detaching nodes. -/

namespace Sys2Proof.Machine

/-! Which registers answer (R90, R113, R270, Table 4.2). -/

/-- The register blocks of BAR0 (Table 16.2). -/
inductive Blk where
  | glb | img | clkPwr | cal | trk (n : Nat) | ros | cox | crw | rng | dma | cq | epm | arb | tim | tdm | evt
  deriving DecidableEq, Repr

/-- Domain `d` is on. -/
def State.isOn (s : State) (d : Nat) : Bool := s.pwr.on.getLsbD d

/-- The domains a block's registers lie in (Table 1.3, Table 4.2, R543). -/
def Blk.domains : Blk → List Nat
  | .cal => [1, 22]
  | .trk n => [1, 3 + n]
  | .cox => [1, 19]
  | .dma => [1, 18]
  | .cq => [1, 11, 12, 13, 14]
  | .epm => [1, 15, 16]
  | .tim => [1, 21]
  | .tdm => [1, 17]
  | _ => [1]

/-- The blocks that answer in the loader state (R90). -/
def Blk.inLoader : Blk → Bool
  | .glb | .img | .clkPwr | .cal | .evt => true
  | _ => false

/-- A block answers register accesses (R90, R113). -/
def State.responds (s : State) (b : Blk) : Bool :=
  b.domains.all s.isOn && (s.img.state == .applied || b.inLoader)

/-- Crew `k` is in RUNNING; the manager is once an image is applied (Table 8.10). -/
def State.crewRuns (s : State) (k : Nat) : Bool :=
  if k = 0 then s.img.state == .applied else (s.crew k).st == .running

/-- An access to crew `k`'s registers of block `b` takes effect: through BAR0 by the manager, or through
the crew's own window, while the crew is RUNNING (R294, Table 8.3). -/
def State.regOk (s : State) (acc : Acc) (k : Nat) (b : Blk) : Bool :=
  s.responds b && s.crewRuns k && (acc == .bar0 || decide (k ≠ 0))

/-- The function that makes an access. -/
def accFn (acc : Acc) (k : Nat) : Nat := match acc with | .bar0 => 0 | .window => k

/-! What the applied image gives (R32, R76, R77, R273). -/

/-- Crew section `k`. -/
def Image.sec (im : Image) (k : Nat) : Option CrewSec := Keyed.find im.crews k
/-- Trunk entry `n`. -/
def Image.trunk (im : Image) (n : Nat) : TrkImg := im.trunks.getD n ⟨0, 0, 0, 0, 0, 0, 0⟩
/-- Crew section `k` of the applied image. -/
def State.sec (s : State) (k : Nat) : Option CrewSec := s.img.applied.bind (·.sec k)
/-- The sum of a number over the crew sections present. -/
def Image.sumSec (im : Image) (f : CrewSec → Nat) : Nat := (im.crews.map (fun c => f c.2)).sum
/-- A trunk exists (R105). -/
def State.exists? (s : State) (n : Nat) : Bool := (s.img.applied.map (·.trunkEnable.getLsbD n)).getD false
/-- A trunk is pair-fed (R27). -/
def State.pairFed (s : State) (n : Nat) : Bool := (s.img.applied.map (·.pairFed.getLsbD n)).getD false
/-- The highest ring number plus 1 that a crew may enable, and the largest size (R299). -/
def State.ringLimit (s : State) (k : Nat) : Nat × Nat :=
  if k = 0 then (8, 16) else ((s.sec k).map (fun c => (c.rings, c.ringLog2Max))).getD (0, 0)
/-- May use the urgent queue (R307): the manager passes. -/
def State.urgentOk (s : State) (k : Nat) : Bool := k == 0 || ((s.sec k).map (·.permUrgent)).getD false
/-- Holds the urgent-broadcast permission: the manager passes. -/
def State.bcastOk (s : State) (k : Nat) : Bool := k == 0 || (s.crew k).bcast
/-- Transfer-context quota of crew `k` on trunk `n` (R273). -/
def State.tcQuota (s : State) (k n : Nat) : Nat :=
  match s.img.applied with
  | none => 0
  | some im => if k = 0 then (im.trunk n).mgrTc
    else ((im.sec k).map (fun c => c.tc.getD n 0)).getD 0 + Tab.get 0 (s.crew k).extraTc n
/-- Cell quota of crew `k` (R273). -/
def State.cellQuota (s : State) (k : Nat) : Nat :=
  match s.img.applied with
  | none => 0
  | some im => if k = 0 then im.mgrCells else ((im.sec k).map (·.cells)).getD 0 + (s.crew k).extraCells
/-- Cell-queue quota of crew `k` (R273). -/
def State.queueQuota (s : State) (k : Nat) : Nat :=
  match s.img.applied with
  | none => 0
  | some im => if k = 0 then im.mgrQueues else ((im.sec k).map (·.queues)).getD 0 + (s.crew k).extraQueues

/-- The transfer contexts: those of the controller's own requests lie above 4,095 and are not counted. -/
def State.tcUsed (s : State) (k n : Nat) : Nat :=
  (s.xfers.filter (fun x => decide (x.1 < 4096) && x.2.crew == k && x.2.trunk == n)).length
/-- The tag of a transfer's queue (R370): a port's standing transfer uses the port's. -/
def Xfer.tagOf (x : Xfer) : QTag := match x.origin with | .port k p => .port k p | _ => .xfer x.seq
/-- Queues of owners that meet a test, given back while their cells are still being zeroed (R377). -/
def State.queuesZeroing (s : State) (p : Nat → Bool) : Nat :=
  let tags := (s.cells.table.filter (fun c => decide (0 < c.2.zero) && p c.2.owner)).map (·.2.tag)
  (tags.eraseDups.filter (fun g => !s.xfers.any (fun x => x.2.queue && x.2.tagOf == g))).length
/-- Cell queues a crew holds (R377). -/
def State.queuesUsed (s : State) (k : Nat) : Nat :=
  (s.xfers.filter (fun x => x.2.queue && x.2.crew == k)).length + s.queuesZeroing (· == k)
/-- Cells of a list of items. -/
def itemCells (l : List Item) : Nat := (l.map (fun i => i.cells.length)).sum
/-- Cells an owner holds: in queues, being zeroed, and credits outstanding (R373). -/
def State.cellsHeld (s : State) (k : Nat) : Nat :=
  (s.cells.table.filter (fun c => c.2.owner == k)).length + (s.xfers.map (fun x => if x.2.crew = k then x.2.credits else 0)).sum

/-- The number of crews that hold, or are still counted for, broadcast permission (R283, R284). -/
def State.bcastHolders (s : State) : Nat := (s.crews.filter (fun c => c.2.bcastCounted)).length
/-- `GLB_ISOLATION.isolation_effective` (R46, R69). -/
def State.isolationEffective (s : State) : Bool :=
  (s.img.applied.map (fun im => !im.hdr.debug)).getD false && s.shadow.debugIntact && s.bcastHolders == 0

/-! Positions and reachability (R30, R480 to R482, R217). -/

/-- The unit drives trunk `n` from its tail end (R27, R30). -/
def State.fromTail (s : State) (n : Nat) : Bool := s.pairFed n && !s.straps.role
/-- Hop count of hub position `p` from the driving end (R30). -/
def State.hopOf (s : State) (n p : Nat) : Nat :=
  if s.fromTail n then (s.trk n).tailN + 1 - p else p
/-- Hub position at hop index `h` from the driving end. -/
def State.hubAt (s : State) (n h : Nat) : Nat :=
  if s.fromTail n then (s.trk n).tailN + 1 - h else h
/-- Effective transceiver delay of trunk `n` in ns (R126, R159): item index 11 + n. -/
def State.dtx (s : State) (n : Nat) : Nat := (Tab.get 0 s.cal.eff (11 + n)).toNat

/-- Why a target cannot be reached. -/
inductive Reach where
  | ok | pruned | quarantined | walking | sleeping | asleep | farSide
  deriving DecidableEq, Repr

/-- A scope from which no transaction is issued: from the SETUP of the SUSPEND request to frame r + 2 (R217, R224). -/
def Sleep.stopped : Sleep → Bool
  | .awake => false
  | .asked sent => sent
  | _ => true
/-- A scope past its eve window (R220). -/
def Sleep.deep : Sleep → Bool
  | .asleep => true
  | .waking _ _ => true
  | _ => false

/-- The sleep scopes that hold the node at hub `p`, port `q` of trunk `n` (Table 6.8). -/
def State.scopes (s : State) (n p q : Nat) : List Sleep :=
  let t := s.trk n
  [t.sleep] ++ (if q = 0 then [] else [Tab.get Sleep.awake (t.hub p).ports q])
    ++ (t.hubs.filter (fun h => decide (s.hopOf n h.1 < s.hopOf n p))).map (fun h => h.2.far)

/-- How the node at hub `p`, port `q` of trunk `n` stands (R480, R481, R482, R463, R217). -/
def State.reach (s : State) (n p q : Nat) : Reach :=
  let t := s.trk n
  let h := s.hopOf n p
  if t.quarantined then .quarantined
  else if t.hubs.any (fun x => x.2.pruned && decide (s.hopOf n x.1 < h)) then .pruned
  else if t.mode != .whole && decide ((if s.tdm.active then t.splitK else t.tailN - t.splitK) < h) then .farSide
  else if decide (0 < t.unreach) && decide (t.unreach ≤ h) then .walking
  else if (s.scopes n p q).any Sleep.deep then .asleep
  else if (s.scopes n p q).any Sleep.stopped then .sleeping
  else .ok

/-- The line port may issue transactions on trunk `n` (R29, R41, R180, R455, R461). -/
def State.mayIssue (s : State) (n : Nat) : Bool :=
  let t := s.trk n
  t.state == .running && !t.hold && !t.claimFrame && !t.quarantined
    && (!s.pairFed n || (s.tdm.active && !s.tdm.fenced))

/-- Trunk `n` stands held for this unit's own work: `TRK_CTRL.hold`, or a pair-fed trunk it does not drive as the
active unit (R180, R461). -/
def State.heldTrunk (s : State) (n : Nat) : Bool :=
  (s.trk n).hold || (s.pairFed n && !(s.tdm.active && !s.tdm.fenced))
/-- `DTXEN` of a pair-fed port is held deasserted by the fence (R454). -/
def State.gated (s : State) : Bool := s.tdm.fenceIn && !(s.straps.role && s.tdm.fenceOut)
/-- The unit may drive trunk `n`: not pair-fed, or pair-fed and active or in split mode, the fence permitting
(R29, R454, R461). -/
def State.mayDrive (s : State) (n : Nat) : Bool :=
  !s.pairFed n || ((s.tdm.active || (s.trk n).mode != .whole) && !s.gated)
/-- The direction is in electrical idle for a suspend or a rate change, its driver disabled (R149). -/
def Trk.lineIdle (t : Trk) : Bool :=
  t.sleep == .asleep || (match t.rateChg with | some c => c.electricalIdle && !c.resumed | none => false)

/-- `TRK_STATUS.quiesced` (R180). -/
def Trk.quiesced (t : Trk) : Bool := t.state == .stopped || (t.hold && t.slots.isEmpty)
/-- A trunk is running for the domain rules: started and not yet reported stopped (R136). -/
def Trk.started (t : Trk) : Bool := t.state != .stopped

/-! Contexts, nodes, endpoint maps. -/

/-- The context of endpoint `ep` of address `a` on trunk `n`. -/
def State.ctxOf (s : State) (n a ep : Nat) : Option Nat :=
  (s.ctxs.find? (fun c => c.2.used && c.2.trunk == n && c.2.addr == a && c.2.ep == ep)).map (·.1)
/-- The roster entry of a position (R211). -/
def State.entryAt (s : State) (n p q : Nat) : Option (Nat × Entry) :=
  s.ros.entries.find? (fun e => e.2.trunk == n && e.2.hub == p && e.2.port == q)
/-- The roster entry that holds an address. -/
def State.entryOf (s : State) (n a : Nat) : Option (Nat × Entry) :=
  s.ros.entries.find? (fun e => e.2.trunk == n && e.2.addr == a)
/-- Kind of endpoint `ep` in an endpoint map (Table 5.11). -/
def epKind (m : List Byte) (ep : Nat) : Nat := byteAt m (8 * ep)
/-- max_packet of endpoint `ep`. -/
def epMax (m : List Byte) (ep : Nat) : Nat := leAt m (8 * ep + 2) 2
/-- Endpoint `ep` accepts BCAST. -/
def epBcast (m : List Byte) (ep : Nat) : Bool := byteAt m (8 * ep + 4) % 2 == 1
/-- Hub positions with an attached hub on trunk `n`. -/
def State.hubsUp (s : State) (n : Nat) : List Nat :=
  (s.ros.entries.filter (fun e => e.2.trunk == n && e.2.isHub && e.2.attached)).map (fun e => e.2.hub)
/-- The number of hubs of a trunk as the controller knows it: the deepest attached hub. -/
def State.hubCount (s : State) (n : Nat) : Nat := (s.hubsUp n).foldl max 0

/-! Cells (R370, R374, R376). -/

/-- Free cells of a bank. -/
def Cells.free (c : Cells) (b : Nat) : Nat := 16384 - (c.table.filter (fun e => e.1 % 4 == b)).length
/-- The first bank from `b` on that has a free cell. -/
def Cells.pick (c : Cells) (b : Nat) : Nat :=
  if 0 < c.free (b % 4) then b % 4 else if 0 < c.free ((b + 1) % 4) then (b + 1) % 4
  else if 0 < c.free ((b + 2) % 4) then (b + 2) % 4 else (b + 3) % 4
/-- The first free cell of bank `b` from place `j` on; the order of a bank's free list is open and shows nowhere (log 66). -/
def Cells.lowest (c : Cells) (b : Nat) : Nat → Nat → Nat
  | 0, j => 4 * j + b
  | f + 1, j => if (Keyed.find c.table (4 * j + b)).isSome then c.lowest b f (j + 1) else 4 * j + b
/-- Take `n` cells for a queue; which bank each one comes from is open (log 1). -/
def takeCells (owner : Nat) (tag : QTag) : Nat → State → List Nat × State
  | 0, s => ([], s)
  | n + 1, s =>
    let (v, s) := freeValue s
    let c := s.cells.lowest (s.cells.pick v) s.cells.table.length 0
    let r := takeCells owner tag n
      { s with cells := { s.cells with table := Keyed.insert c { owner := owner, tag := tag } s.cells.table } }
    (c :: r.1, r.2)
/-- Release cells: each is zeroed, four 16-byte parts, before it is free again (R370). -/
def releaseCells (l : List Nat) (s : State) : State :=
  { s with cells := { s.cells with table := s.cells.table.map (fun c =>
      if l.contains c.1 then (c.1, { owner := c.2.owner, tag := c.2.tag, zero := 4 }) else c) } }
/-- Release every cell tagged with a queue, as the sweep of the tag table does (R341, R384, R388). -/
def releaseTag (tag : QTag) (s : State) : State :=
  releaseCells ((s.cells.table.filter (fun c => c.2.tag == tag && c.2.zero == 0)).map (·.1)) s
/-- Cells of an item of `n` bytes (R371). -/
def cellsFor (n : Nat) : Nat := max 1 (ceilDiv n 64)

/-- The cells of an item carry its fill counts and flags (R370). -/
def fillCells (it : Item) (s : State) : State :=
  { s with cells := { s.cells with table := s.cells.table.map (fun c =>
      match it.cells.idxOf? c.1 with
      | some j => (c.1, { c.2 with fill := min 64 (it.len - 64 * j), first := j == 0,
                                   last := decide (j + 1 = it.cells.length), te := it.te })
      | none => c) } }
/-- The cell after one in a chain. -/
def nextIn : List Nat → Nat → Option Nat
  | a :: b :: t, c => if a = c then some b else nextIn (b :: t) c
  | _, _ => none
/-- The pointers of a queue with a chain of cells (R372). -/
def Ptrs.chain (l : List Nat) : Ptrs := { head := l.head?, head2 := l.head?, tail := l.getLast?, tail2 := l.getLast? }
/-- The next pointers of a queue's cells, both copies, follow a chain (R371, R372). -/
def linkCells (l : List Nat) (s : State) : State :=
  { s with cells := { s.cells with table := s.cells.table.map (fun c =>
      if l.contains c.1 then (c.1, { c.2 with next := nextIn l c.1, next2 := nextIn l c.1 }) else c) } }
/-- The copies of the tail agree, which is tested at a commit (R372). -/
def Ptrs.tailOk (p : Ptrs) : Bool := p.tail == p.tail2
/-- The copies of the head and of the next pointers of cells to be released agree (R372). -/
def State.headOk (s : State) (p : Ptrs) (l : List Nat) : Bool :=
  p.head == p.head2 && s.cells.table.all (fun c => !l.contains c.1 || c.2.next == c.2.next2)

/-! Channels (R333). -/

/-- A channel's entry of the image (Table 3.5b); owner 0xFF when unbound (R333). -/
def State.chImg (s : State) (c : Nat) : ChImg :=
  match s.img.applied with
  | some im => im.chans.getD c ⟨0xFF, 0, 0⟩
  | none => ⟨0xFF, 0, 0⟩
/-- Channel owner. -/
def State.chOwner (s : State) (c : Nat) : Nat := (s.chImg c).owner
/-- A sample-stream channel. -/
def State.isStream (s : State) (c : Nat) : Bool := (s.chImg c).owner != 0xFF && (s.chImg c).purpose == 1
/-- A work-ring channel. -/
def State.isWork (s : State) (c : Nat) : Bool := (s.chImg c).owner != 0xFF && (s.chImg c).purpose == 0

/-! Host reads and tags (R336, R544, R545). -/

/-- The channel a read belongs to, if any. -/
def ReadFor.channel : ReadFor → Option Nat
  | .payload c _ => some c
  | .walk c _ => some c
  | .chDesc c => some c
  | .stageSrc c => some c
  | .flush c => some c
  | .discard c => c
  | _ => none
/-- Tags a channel holds. -/
def Pci.chTags (p : Pci) (c : Nat) : Nat := (p.tags.filter (fun t => t.2.use.channel == some c)).length
/-- A tag can be had for a read: one of 64 is free, and a channel holds fewer than 16. -/
def Pci.tagOk (p : Pci) (u : ReadFor) : Bool :=
  decide (p.tags.length < 64) && (match u.channel with | some c => decide (p.chTags c < 16) | none => true)
/-- Issue a read under the lowest free tag. -/
def sendRead (r : HostRead) (s : State) : State :=
  match Keyed.lowestFree s.pci.tags 64 0 with
  | none => s
  | some t =>
    let tags := Keyed.insert t r s.pci.tags
    emit (.hostRead r.fn t r.addr r.len)
      { s with pci := { s.pci with tags := tags, tagPeak := max s.pci.tagPeak tags.length } }
/-- Requester `req` asks for a read: it waits for its grant, for a tag and for Bus Master Enable (R336, R394, R545). -/
def askRead (req : Nat) (r : HostRead) (s : State) : State := enqueue req r.fn (.read r) s
/-- Free a tag. -/
def freeTag (t : Nat) (s : State) : State := { s with pci := { s.pci with tags := Keyed.erase t s.pci.tags } }
/-- Forget host requests that wait and meet a test. -/
def dropQueued (p : HostReq → Bool) (s : State) : State :=
  { s with pci := { s.pci with queue := s.pci.queue.filter (fun q => !p q) } }
/-- The read a waiting request asks for. -/
def HostReq.reads (q : HostReq) (p : ReadFor → Bool) : Bool := match q.body with | .read r => p r.use | _ => false

/-! Grants (R393, R401). -/

/-- Requester `i` of arbiter `a` is masked by a cut-off (R400, R401). -/
def State.masked (s : State) (a i : Nat) : Bool := (Keyed.find (s.arb a).reqs i).any (fun r => r.cut || r.cutDue)
/-- Requester `i` holds the grant of arbiter 1 or 2 and its unit of this cycle is not used. -/
def State.granted (s : State) (a i : Nat) : Bool := (Keyed.find (s.arb a).holder 0).any (fun t => t.req == i && !t.used)
/-- The unit of this cycle is used by the holder of arbiter 1 or 2. -/
def useGrant (a : Nat) (s : State) : State :=
  match Keyed.find (s.arb a).holder 0 with
  | some t => s.updArb a (fun b => { b with holder := Keyed.insert 0 { t with used := true } b.holder })
  | none => s
/-- The cut bits of some requesters are cleared (R402). -/
def clearCuts (a : Nat) (p : Nat → Bool) (s : State) : State :=
  s.updArb a (fun b => { b with reqs := b.reqs.map (fun r => if p r.1 then (r.1, { r.2 with cut := false, cutDue := false }) else r) })

/-! Transfers (R66, R314, R341, R377). -/

/-- The outcome of entry `n` of a ring is fixed. -/
def Ring.outcome (r : Ring) (n st bytes : Nat) : Ring :=
  let f : RingEnt → RingEnt := fun e =>
    if e.outcome.isNone then { e with outcome := some (st, bytes) } else e
  { r with ents := r.ents.modify (BitVec.ofNat 32 n - r.done).toNat f }

/-- Reads that meet a test are discarded on arrival, keeping their tags until then; those not issued are forgotten (R341). -/
def discardReads (p : ReadFor → Bool) (s : State) : State :=
  let s := dropQueued (·.reads p) s
  let f := fun (t : Nat × HostRead) => if p t.2.use then (t.1, { t.2 with use := .discard t.2.use.channel }) else t
  { s with pci := { s.pci with tags := s.pci.tags.map f } }

/-- A read belongs to transfer `i`. -/
def ReadFor.ofXfer (i : Nat) : ReadFor → Bool
  | .payload _ j => j == i
  | .walk _ j => j == i
  | .link j => j == i
  | _ => false

/-- The transactions of a transfer that still hold slots no longer act on it. -/
def orphanTxns (i n : Nat) (s : State) : State :=
  let f := fun (t : Txn) => if t.xfer = some i then { t with xfer := none } else t
  s.updTrk n (fun t => { t with slots := t.slots.map f, relayed := t.relayed.map f,
                                 exhausted := t.exhausted.filter (fun x => x.xfer ≠ some i) })

/-- A transfer's queue, channel and credits are given back; its staged data and reads are discarded
(R341, R374, R377). -/
def dropXferWork (i : Nat) (x : Xfer) (s : State) : State :=
  let s := releaseTag x.tagOf s
  let s := orphanTxns i x.trunk (discardReads (·.ofXfer i) s)
  match x.channel with
  | some c => s.updCh c (fun h => { h with serve := none, staging := [], inFlight := [], moved := 0 })
  | none => s

/-- Hand a control transfer's answer to the part of the controller that asked for it. -/
def ctlAnswer (use : CtlUse) (st : Nat) (dataIn : List Byte) (s : State) : State :=
  match use with
  | .attach n => s.updTrk n (fun t => { t with attach := t.attach.map (fun a =>
      { a with result := some st,
               identity := if a.step = 1 && isSuccess st then dataIn else a.identity,
               epmap := if a.step = 2 && isSuccess st then dataIn else a.epmap }) })
  | .rosCmd => { s with ros := { s.ros with run := s.ros.run.map (fun r => { r with status := some st }) } }
  | _ => s

/-- The entry of a ring transfer has cmpl set, so its context waits for its record (R314). -/
def Xfer.cmplKept (x : Xfer) (s : State) : Bool :=
  match x.origin with
  | .ring k r n => ((s.ring k r).ents.getD (BitVec.ofNat 32 n - (s.ring k r).done).toNat {}).cmpl
  | _ => false

/-- A request of the controller that a hub acts on after its status stage: PORT_ENABLE or PORT_DISABLE (Table 6.3). -/
def Xfer.portAct (x : Xfer) : Bool :=
  byteAt x.setup 1 == 0x20 && (byteAt x.setup 0 == 0x01 || byteAt x.setup 0 == 0x02)
/-- The hub at an address has yet to act (R169): a packet already in a slot does not count as a later one (log 54). -/
def Trk.notActed (addr : Nat) (t : Trk) : Trk :=
  { t with unacted := t.unacted.filter (·.1 ≠ addr) ++ [(addr, (t.slots.filter (·.addr == addr)).map (·.slot))] }

/-- A transfer completes, exactly once (R66): its outcome is recorded, its queue and channel go back; its
transfer context goes back now or, where a record is needed, with that record (R314). -/
def completeXfer (i st bytes : Nat) (s : State) : State :=
  match s.xfer i with
  | none => s
  | some x =>
    if x.ended then s
    else
      let s := dropXferWork i x s
      match x.origin with
      | .ring k r n =>
        let s := s.updRing k r (·.outcome n st bytes)
        if st = stOk && !x.cmplKept s then { s with xfers := Keyed.erase i s.xfers }
        else s.setXfer i { x with ended := true, queue := false, items := [], ptrs := {}, credits := 0, channel := none,
                                  partialItem := [], partCells := [] }
      | .ctl use =>
        let s := if isSuccess st && x.portAct then s.updTrk x.trunk (·.notActed x.addr) else s
        ctlAnswer use st x.dataIn { s with xfers := Keyed.erase i s.xfers }
      | .port _ _ => { s with xfers := Keyed.erase i s.xfers }

end Sys2Proof.Machine
end

