-- ==== Sys2Proof/Machine/Xfers.lean ====
section
/-! DEFINITION. Ending transfers (R66, R214, R280, R323, R325), halting rings, detaching nodes, returning
contexts, and starting the controller's own control transfers. -/

namespace Sys2Proof.Machine

/-- A detail of two items (Table 15.4). -/
def pairDetail (a b : Nat) : Nat := a % 256 + b % 256 * 256

/-- The SETUP of a control transfer asks for an IN data stage (Table 5.8). -/
def setupIn (b : List Byte) : Bool := decide (128 ≤ byteAt b 1)
/-- Its length field. -/
def setupLen (b : List Byte) : Nat := leAt b 6 2
/-- A standard request of code `c`. -/
def isStd (b : List Byte) (c : Nat) : Bool := byteAt b 0 == c && byteAt b 1 / 32 % 4 == 0
/-- A SETUP payload (Table 5.8): flags kind 0 standard, 1 hub class. -/
def mkSetup (req : Nat) (isIn : Bool) (kind value index length : Nat) : List Byte :=
  leBytes 1 req ++ leBytes 1 (bit isIn * 128 + kind * 32) ++ leBytes 2 value ++ leBytes 2 index ++ leBytes 2 length

/-- Data go from the node to the host. -/
def Xfer.isIn (x : Xfer) : Bool :=
  match x.op with | .bulkIn => true | .control => setupIn x.setup | _ => false
/-- Bytes moved, as a record reports them (Table 9.4): written to host memory for IN, acknowledged for OUT. -/
def Xfer.moved (x : Xfer) : Nat := if x.isIn then x.written else x.bytes
/-- A transaction of transfer `i` holds a line slot or waits as exhausted (R26, R160). -/
def State.inSlot (s : State) (i n : Nat) : Bool :=
  let t := s.trk n
  (t.slots ++ t.exhausted ++ t.relayed).any (fun t => t.xfer == some i)

/-- Complete transfer `i` with a status and the bytes it has moved. -/
def endXfer (i st : Nat) (s : State) : State :=
  match s.xfer i with
  | none => s
  | some x => completeXfer i st x.moved s

/-- The status of a transfer that two recoveries end (R66): `CREW_RESET` first, then `ABORTED`. -/
def firstOf (stopping : Option Nat) (st : Nat) : Nat :=
  match stopping with
  | some p => if p = stCrewReset ∨ (p = stAborted ∧ st ≠ stCrewReset) then p else st
  | none => st

/-- Complete every transfer that meets a test, at once; one that a reset or an abort is already ending keeps that status. -/
def endWhere (p : Nat → Xfer → Bool) (st : Nat) (s : State) : State :=
  s.xfers.foldl (fun s x => if !x.2.ended && p x.1 x.2 then endXfer x.1 (firstOf x.2.stopping st) s else s) s

/-- Abort the transfers that meet a test: one with a transaction in a slot ends under its own budget
(R280, R285, R325); one whose line part is done goes on; the rest complete at once. -/
def abortWhere (p : Nat → Xfer → Bool) (st : Nat) (s : State) : State :=
  s.xfers.foldl (fun s x =>
    if !x.2.ended && p x.1 x.2 && x.2.fin.isNone then
      if s.inSlot x.1 x.2.trunk then s.updXfer x.1 (fun y => { y with stopping := y.stopping <|> some st })
      else endXfer x.1 st s
    else s) s

/-- A ring enters HALTED (R323): entries read ahead are discarded, the status and index kept. -/
def haltRing (k r st index : Nat) (s : State) : State :=
  let s := discardReads (fun u => match u with | .desc k' r' _ _ => k' == k && r' == r | _ => false) s
  raiseBoth k .ringHalted 255 (pairDetail k r)
    (s.updRing k r (fun g => { g with state := .halted, haltStatus := st, haltIndex := index % 65536, ahead := [],
                                      fetching := false }))

/-- A transfer that fails with `CHAIN_LIMIT` or `HOST_MEM_ERR` halts its ring (R311, R323, R324); a burst that holds a line
slot ends first, so that the record counts what its node acknowledged. -/
def failXfer (i st : Nat) (s : State) : State :=
  match s.xfer i with
  | none => s
  | some x =>
    if x.ended || x.stopping == some st then s
    else match x.origin with
    | .ring k r n =>
      let halted := if (s.ring k r).state = .running then haltRing k r st n s else s
      if !x.isIn && s.inSlot i x.trunk then halted.updXfer i (fun y => { y with stopping := y.stopping <|> some st })
      else completeXfer i st (if x.isIn then 0 else x.bytes) halted
    | _ => endXfer i st s

/-- Line work of a transfer is done: data still in cells reach host memory first (R319). -/
def finishLine (i st : Nat) (s : State) : State :=
  match s.xfer i with
  | none => s
  | some x =>
    if x.isIn && decide (x.written < x.got) then s.updXfer i (fun y => { y with fin := some st })
    else endXfer i st s

/-! The controller's own control transfers (ids above 4,095, the manager's). -/

/-- Start a control transfer of the controller to an address: its SETUP and OUT data.  The trunks share 1,024 numbers, and a
request that finds all taken is dropped (DESIGN CHOICE, log 15). -/
def startCtl (n addr hub : Nat) (use : CtlUse) (setup dataOut : List Byte) (s : State) : State :=
  match Keyed.lowestFree s.xfers 1024 4096 with
  | none => s
  | some i =>
    let item : List Item := if dataOut.isEmpty then [] else [{ data := dataOut, len := dataOut.length }]
    let x : Xfer := { seq := s.seq, crew := 0, origin := .ctl use, op := .control, trunk := n, addr := addr,
                      hub := hub, length := setupLen setup, setup := setup, items := item }
    { s.setXfer i x with seq := s.seq + 1 }

/-- A control transfer takes its node's next tag at its first SETUP (R170); at address 0 the tags of the
attach under way are used. -/
def giveTag (i : Nat) (s : State) : State :=
  match s.xfer i with
  | none => s
  | some x =>
    if x.tagged then s
    else if x.addr = 0 then
      let tag := ((s.trk x.trunk).attach.map (·.tag)).getD 0
      (s.setXfer i { x with tag := tag, tagged := true }).updTrk x.trunk (fun t =>
        { t with attach := t.attach.map (fun a => { a with tag := (a.tag + 1) % 16 }) })
    else match s.entryOf x.trunk x.addr with
      | some (j, e) => (s.setXfer i { x with tag := e.tag, tagged := true }).setEntry j
          { e with tag := (e.tag + 1) % 16, setup := x.setup, acted := false }
      | none => s.setXfer i { x with tagged := true }

/-- A hub-class request to the hub at position `h` (Table 6.3). -/
def hubRequest (n h : Nat) (use : CtlUse) (code value index : Nat) (s : State) : State :=
  match s.entryAt n h 0 with
  | some (_, e) => startCtl n e.addr h use (mkSetup code false 1 value index 0) [] s
  | none => ctlAnswer use stPruned [] s

/-! Contexts and nodes (R172, R212, R214, R280). -/

/-- The longest packet of an endpoint: its map's max_packet, within 64 B for a periodic endpoint and EP0 and 256 B for a
bulk one (R184, Table 5.11). -/
def Ctx.longest (c : Ctx) : Nat := min (if c.ep = 0 ∨ c.kind = 1 ∨ c.kind = 2 ∨ c.kind = 5 then 64 else 256) c.maxPacket

/-- Start values of a context (R172). -/
def Ctx.start (c : Ctx) : Ctx :=
  { c with e := false, t := false, outOld := 0, outNext := 0, inE := 0, halted := false, rsNext := false }

/-- The EPM buffer is zeroed: NEVER, not lost, no pending copy (R369). -/
def Epm.zero (e : Epm) : Epm := { e with state := .never, lost := false, pending := none, copy := none, data := [], frame := 0, stamp := 0 }

/-- Change every context that meets a test. -/
def updCtxs (p : Nat → Ctx → Bool) (f : Ctx → Ctx) (s : State) : State :=
  s.ctxs.foldl (fun s c => if p c.1 c.2 then s.updCtx c.1 f else s) s

/-- Give back a context: its binding, buffer and almanac entry go with it (R280, R344, R369). -/
def freeCtx (c : Nat) (s : State) : State :=
  let x := s.ctx c
  let s := match x.channel with
    | some h => s.updCh h (fun y => { y with pend := y.pend.filter (· ≠ c) })
    | none => s
  s.setCtx c {}

/-- A node is detached (R214, R481): its flag cleared, its transfers completed with a status; urgent ones
are spared when `spareUrgent`; the almanac entry of a hub's EP1 goes with it (R204, R237; log 57). -/
def detachEntry (i st : Nat) (spareUrgent : Bool) (s : State) : State :=
  match s.entry i with
  | none => s
  | some e =>
    let s := s.setEntry i { e with attached := false }
    let s := endWhere (fun _ x => x.trunk == e.trunk && x.addr == e.addr && x.op != .bcast
      && (match x.origin with | .port _ _ => false | _ => true) && !(spareUrgent && x.urgent)) st s
    updCtxs (fun _ c => c.used && c.trunk == e.trunk && c.addr == e.addr) (fun c => { c with occ := {}, alm := if c.alm.hubEv then {} else c.alm }) s

/-- The entries of a trunk that lie beyond hub `p` from the driving end. -/
def State.beyond (s : State) (n p : Nat) : List (Nat × Entry) :=
  s.ros.entries.filter (fun e => e.2.trunk == n && e.2.attached && decide (s.hopOf n p < s.hopOf n e.2.hub))

/-- Detach a list of entries with one status. -/
def detachAll (l : List (Nat × Entry)) (st : Nat) (spareUrgent : Bool) (s : State) : State :=
  l.foldl (fun s e => detachEntry e.1 st spareUrgent s) s

/-- A running suspend or resume whose holder or targets are lost completes with a status (R227). -/
def endSleepCmd (n st : Nat) (s : State) : State :=
  match s.ros.run with
  | some r => if r.trunk = n ∧ (r.op = 5 ∨ r.op = 6) then
      { s with ros := { s.ros with run := none, busy := false, status := st, lastOp := r.op } } else s
  | none => s

/-! Positions.  Port 16 is a far side; hub 0 with port 16 stands for the line port before the head anchor (R484). -/

/-- The hub before position `p`, seen from the driving end; 0 for the line port. -/
def State.parentOf (s : State) (n p : Nat) : Nat := if s.hopOf n p ≤ 1 then 0 else s.hubAt n (s.hopOf n p - 1)
/-- The position of the node behind a hub's port (R208): hub position and port, port 0 for a hub. -/
def State.behind (s : State) (n h port : Nat) : Nat × Nat :=
  if port ≠ 16 then (h, port)
  else if h = 0 then (s.hubAt n 1, 0)
  else (if s.fromTail n then h - 1 else h + 1, 0)
/-! Commands of `ROS_CMD` that end here. -/

/-- The running command ends with a status (Table 6.14). -/
def rosDone (st : Nat) (s : State) : State :=
  match s.ros.run with
  | none => s
  | some r => { s with ros := { s.ros with busy := false, status := st, lastOp := r.op, run := none } }
/-- The running adopt or accept new names this position. -/
def RosRun.names (r : RosRun) (n : Nat) (pos : Nat × Nat) : Bool :=
  (r.op == 1 || r.op == 2) && r.trunk == n && r.hub == pos.1 && r.port == pos.2
/-- End an adopt or accept new of a position. -/
def rosDoneAt (n : Nat) (pos : Nat × Nat) (st : Nat) (s : State) : State :=
  match s.ros.run with
  | some r => if r.names n pos then rosDone st s else s
  | none => s

/-! Attaches given up (R207, R214, R481). -/

/-- A new entry made by an attach that does not end well goes again, with the contexts a hub was given. -/
def undoNew (a : Attach) (s : State) : State :=
  match a.entry with
  | none => s
  | some i =>
    if !a.isNew then s
    else match s.entry i with
    | none => s
    | some e =>
      let s := s.ctxs.foldl (fun s c => if c.2.used && c.2.trunk == e.trunk && c.2.addr == e.addr then freeCtx c.1 s else s) s
      { s with ros := { s.ros with entries := Keyed.erase i s.ros.entries } }

/-- The attach under way and the ports waiting that lie at or behind given positions are given up; an adopt or accept new
of one of them completes with a status. -/
def dropAttaches (n st : Nat) (gone : Nat → Nat → Bool) (s : State) : State :=
  let keep : Nat × Nat → Bool := fun x => !gone x.1 x.2
  let t := s.trk n
  let mine : Nat × Xfer → Bool := fun x => x.2.trunk == n && (match x.2.origin with | .ctl (.attach _) => true | _ => false)
  let run := t.attach.filter (fun a => gone a.hub a.port)
  let lost := (run.toList.map (fun a => (a.hub, a.port))) ++ t.attachQ.filter (fun x => gone x.1 x.2)
  let s := match run with
    | some a => let s := undoNew a s
      { s with xfers := s.xfers.filter (fun x => !mine x) }.updTrk n (fun t => { t with attach := none })
    | none => s
  let s := s.updTrk n (fun t =>
    { t with attachQ := t.attachQ.filter keep, again := t.again.filter (fun x => keep (x.1, x.2.1)) })
  lost.foldl (fun s x => rosDoneAt n (s.behind n x.1 x.2) st s) s

/-- Prune the far side of the hub at position `k` (R481): attaches beyond it are given up. -/
def pruneFar (n k : Nat) (s : State) : State :=
  let s := dropAttaches n stPruned (fun h p => h ≠ 0 && (decide (s.hopOf n k < s.hopOf n h) || (h == k && p == 16))) s
  let gone := (s.beyond n k).map (·.2.addr)
  let s := s.updTrk n (fun t => { t with unacted := t.unacted.filter (fun u => !gone.contains u.1) })
  let s := s.updTrk n (fun t => { t.updHub k (fun h =>
    { h with pruned := true, clean := 0, prunedAt := s.frame, far := .awake }) with walk := none, unreach := 0 })
  let s := raise 0 .subtreePruned n k (detachAll (s.beyond n k) stPruned true s)
  let s := match s.ros.run with
    | some r => if r.trunk = n ∧ s.hopOf n k < s.hopOf n r.hub then endSleepCmd n stPruned s else s
    | none => s
  hubRequest n k (.prune n k) 0x05 16 0 s

/-- A rate change ends, however it ends: a `TRK_CTRL.hold` written 0 during it takes effect (Table 5.14). -/
def Trk.rateOver (t : Trk) : Trk :=
  { t with rateChg := none, hold := t.hold && !t.holdClear, holdClear := false }

/-- Quarantine a trunk (R482): DTXEN falls, every node is detached, prunes and walks end (Table 15.7). -/
def quarantine (n : Nat) (s : State) : State :=
  if (s.trk n).quarantined then s
  else
    let all := s.ros.entries.filter (fun e => e.2.trunk == n && e.2.attached)
    let clear : Hub → Hub := fun x => { x with pruned := false, clean := 0, far := .awake, ports := [], holder := false }
    let s := dropAttaches n stQuarantined (fun _ _ => true) s
    let s := s.updTrk n (fun t =>
      { t.rateOver with
               state := .fault, quarantined := true, quarAt := s.frame, quarIdle := false, clean := 0, dtxen := false,
               walk := none, unreach := 0, sleep := .awake, unacted := [],
               hubs := t.hubs.foldl (fun h p => Tab.upd {} p.1 clear h) t.hubs })
    raise 0 .trunkQuarantined n 0 (endSleepCmd n stQuarantined (detachAll all stQuarantined true s))

/-- Roster owner of the node of an entry becomes 0 once its last context is gone (R280). -/
def ownerIfLast (n addr : Nat) (s : State) : State :=
  if s.ctxs.any (fun c => c.2.used && c.2.trunk == n && c.2.addr == addr) then s
  else match s.entryOf n addr with
    | some (i, e) => s.setEntry i { e with owner := 0 }
    | none => s

end Sys2Proof.Machine
end

