-- ==== Sys2Proof/Machine/Rings.lean ====
section
/-! DEFINITION. Work rings and completion queues (chapter 9): enabling, doorbells, fetching, chains. -/

namespace Sys2Proof.Machine

/-- Offset of ring `r`'s register block of crew `k` in the BAR an access uses (R332). -/
def ringOffset (acc : Acc) (k r reg : Nat) : Nat :=
  match acc with | .bar0 => 0x140000 + 0x400 * k + 0x20 * r + reg | .window => 0x100 + 0x20 * r + reg
/-- Offset of completion queue `q`'s registers. -/
def cqOffset (acc : Acc) (k q reg : Nat) : Nat :=
  match acc with | .bar0 => 0x140000 + 0x400 * k + 0x100 + 0x20 * q + reg | .window => 0x200 + 0x20 * q + reg
/-- A host structure's base is a multiple of 64. -/
def aligned64 (a : Addr) : Bool := a.toNat % 64 == 0

/-- The conditions of R299 and R300 for enabling a ring. -/
def State.ringEnableOk (s : State) (k r : Nat) : Bool :=
  let g := s.ring k r
  let lim := s.ringLimit k
  decide (r < lim.1) && decide (4 ≤ g.sizeLog2) && decide (g.sizeLog2 ≤ lim.2) && aligned64 g.base
    && (s.cq k g.cq).enabled

/-- `RNG_CTRL.enable` (R300). -/
def ringEnable (acc : Acc) (k r : Nat) (s : State) : State :=
  if !s.regOk acc k .rng || (s.ring k r).state ≠ .disabled then s
  else if s.ringEnableOk k r then
    s.updRing k r (fun g => { g with state := .running, pi := 0, ci := 0, done := 0, ents := [], ahead := [],
                                     fetching := false, noChanTold := false })
  else cfgReject (accFn acc k) (ringOffset acc k r 0x1C) s

/-- A descriptor's cookie, where it was read (Table 9.1). -/
def descCookie (d : List Byte) : Word := BitVec.ofNat 32 (leAt d 0x1C 4)

/-- Entries posted and not taken complete `ABORTED`; the cookie of one never read is open (log 1, log 12). -/
def sweepEnts : Nat → List (List Byte) → Nat → State → List RingEnt × State
  | 0, _, _, s => ([], s)
  | n + 1, ahead, st, s =>
    match ahead with
    | d :: rest =>
      let r := sweepEnts n rest st s
      (⟨true, descCookie d, some (st, 0)⟩ :: r.1, r.2)
    | [] =>
      let (v, s) := freeValue s
      let r := sweepEnts n [] st s
      (⟨true, BitVec.ofNat 32 v, some (st, 0)⟩ :: r.1, r.2)

/-- Entries of a ring not yet in its list of taken entries: from CI on, less those already swept. -/
def Ring.untaken (g : Ring) : Nat := (g.pi - g.done).toNat - g.ents.length

/-- Append the swept entries of a ring. -/
def sweepRing (k r st : Nat) (s : State) : State :=
  let g := s.ring k r
  let (e, s) := sweepEnts g.untaken g.ahead st s
  s.updRing k r (fun g => { g with ents := g.ents ++ e, ahead := [] })

/-- A transfer comes from ring `r` of crew `k`. -/
def Xfer.ofRing (x : Xfer) (k r : Nat) : Bool :=
  match x.origin with | .ring k' r' _ => k' == k && r' == r | _ => false

/-- A STOPPING ring whose DONE equals PI is DISABLED (R325). -/
def ringStopDone (k r : Nat) (s : State) : State :=
  let g := s.ring k r
  if g.state = .stopping ∧ g.done = g.pi then
    raiseBoth k .ringShutdownDone 255 (pairDetail k r) (s.updRing k r (fun g => { g with state := .disabled, ents := [] }))
  else s

/-- `RNG_CTRL.shutdown` (R325). -/
def ringShutdown (acc : Acc) (k r : Nat) (s : State) : State :=
  let g := s.ring k r
  if !s.regOk acc k .rng || !(g.state == .running || g.state == .halted) then s
  else
    let s := discardReads (fun u => match u with | .desc k' r' _ _ => k' == k && r' == r | _ => false) s
    let s := s.updRing k r (fun g => { g with state := .stopping, fetching := false })
    let s := sweepRing k r stAborted s
    ringStopDone k r (abortWhere (fun _ x => x.ofRing k r) stAborted s)

/-- `RNG_CTRL.restart` (R323). -/
def ringRestart (acc : Acc) (k r : Nat) (s : State) : State :=
  if s.regOk acc k .rng && (s.ring k r).state == .halted then s.updRing k r (fun g => { g with state := .running })
  else s

/-- The conditions of R299 for a completion queue. -/
def Cq.sizeOk (c : Cq) : Bool := decide (4 ≤ c.sizeLog2) && decide (c.sizeLog2 ≤ 16) && aligned64 c.base

/-- `CQ_CTRL.enable` (R301); a size or base that breaks R299 is refused (log 13). -/
def cqEnableOp (acc : Acc) (k q : Nat) (s : State) : State :=
  let c := s.cq k q
  if !s.regOk acc k .rng || c.enabled then s
  else if c.sizeOk then
    s.updCq k q (fun c => { c with enabled := true, head := 0, tail := 0, stalled := false, waiters := [] })
  else cfgReject (accFn acc k) (cqOffset acc k q 0x18) s

/-- Some ring that is not DISABLED names the completion queue. -/
def State.cqNamed (s : State) (k q : Nat) : Bool :=
  (List.range 8).any (fun r => (s.ring k r).state != .disabled && (s.ring k r).cq == q)

/-- `CQ_CTRL.disable` (R301). -/
def cqDisableOp (acc : Acc) (k q : Nat) (s : State) : State :=
  if !s.regOk acc k .rng || !(s.cq k q).enabled then s
  else if s.cqNamed k q then cfgReject (accFn acc k) (cqOffset acc k q 0x18) s
  else s.updCq k q (fun c => { c with enabled := false, stalled := false, waiters := [] })

/-- A doorbell value is in range (R303, R358). -/
def piOk (p old done : Word) (sizeLog2 : Nat) : Bool :=
  decide ((p - done).toNat ≤ 2 ^ sizeLog2) && decide ((p - old).toNat ≤ 2 ^ sizeLog2)

/-- `RNG_PI` (R303, R330): stored, or ignored with `RING_INDEX_INVALID`. -/
def ringPi (acc : Acc) (k r : Nat) (p : Word) (s : State) : State :=
  let g := s.ring k r
  if !s.regOk acc k .rng || g.state == .disabled || decide ((s.ringLimit k).1 ≤ r) then s
  else if piOk p g.pi g.done g.sizeLog2 then
    let s := s.updRing k r (fun g => { g with pi := p })
    if g.state = .stopping then ringStopDone k r (sweepRing k r stAborted s) else s
  else raise k .ringIndexInvalid 255 (pairDetail r 0) s

/-- A consumer count is in range (R304): at most TAIL, and never moved back. -/
def headOk (h old tail : Word) (sizeLog2 : Nat) : Bool :=
  decide ((tail - h).toNat ≤ 2 ^ sizeLog2) && decide ((h - old).toNat ≤ (tail - old).toNat)

/-- `CQ_HEAD` (R304, R320, R330). -/
def cqHead (acc : Acc) (k q : Nat) (h : Word) (s : State) : State :=
  let c := s.cq k q
  if !s.regOk acc k .rng || !c.enabled then s
  else if headOk h c.head c.tail c.sizeLog2 then
    s.updCq k q (fun c => { c with head := h, stalled := c.stalled && decide (2 ^ c.sizeLog2 ≤ (c.tail - h).toNat) })
  else raise k .ringIndexInvalid 255 (pairDetail q 1) s

/-! Giving a transfer to the cox engine. -/

/-- A transfer moves data through a cell queue (R377, Table 10.2). -/
def Xfer.hasData (x : Xfer) : Bool :=
  match x.origin with
  | .port _ _ => true
  | .ctl _ => false
  | .ring _ _ _ => x.op == .bcast || (x.op != .nop && decide (0 < x.length))

/-- A transfer takes one queue of its crew's quota, where one is free (R377). -/
def tryQueue (i : Nat) (s : State) : State :=
  match s.xfer i with
  | none => s
  | some x => if x.hasData && !x.queue && !x.ended && decide (s.queuesUsed x.crew < s.queueQuota x.crew)
      then s.setXfer i { x with queue := true } else s

/-- Insert by the order in which transfer contexts were taken. -/
def insertSeq (x : Nat × Xfer) : List (Nat × Xfer) → List (Nat × Xfer)
  | [] => [x]
  | y :: t => if x.2.seq < y.2.seq then x :: y :: t else y :: insertSeq x t
/-- Transfers in that order. -/
def inSeq (l : List (Nat × Xfer)) : List (Nat × Xfer) := l.foldl (fun l x => insertSeq x l) []
/-- The transfers that pass a test take queues in that order. -/
def tryQueues (p : Xfer → Bool) (s : State) : State :=
  (inSeq s.xfers).foldl (fun s x => if x.2.ready && p x.2 then tryQueue x.1 s else s) s

/-- The position and state of a transfer's target. -/
def State.targetOf (s : State) (x : Xfer) : Reach × Bool :=
  if x.op = .bcast then
    (if (s.trk x.trunk).quarantined then .quarantined
     else if (s.trk x.trunk).sleep.deep then .asleep else if (s.trk x.trunk).sleep.stopped then .sleeping else .ok, true)
  else match x.origin with
  | .ctl _ => (s.reach x.trunk x.hub 0, true)
  | _ => match s.entryOf x.trunk x.addr with
    | some (_, e) => (s.reach x.trunk e.hub e.port, e.attached)
    | none => (.ok, false)

/-- A transfer reaches the cox engine: it completes at once where its target is detached, pruned,
quarantined or past its eve (R214, R220, R481, R482); an urgent one waits instead where R485 says so. -/
def reachCox (i : Nat) (s : State) : State :=
  match s.xfer i with
  | none => s
  | some x =>
    match s.targetOf x with
    | (.quarantined, _) => if x.urgent then tryQueue i s else endXfer i stQuarantined s
    | (.pruned, _) => if x.urgent then tryQueue i s else endXfer i stPruned s
    | (.asleep, _) => endXfer i stSuspended s
    | (_, false) => endXfer i stPruned s
    | _ => tryQueue i s

/-! The work descriptor (Tables 9.1, 9.2). -/

/-- Fields of a work descriptor. -/
structure Desc where
  opcode : Nat
  urgent : Bool
  cmpl : Bool
  chain : Bool
  ctx : Nat
  length : Nat
  addr : Addr
  param : List Byte
  nak : Nat
  cookie : Word
  zeros : Bool
  deriving DecidableEq, Repr

/-- Read a descriptor's fields. -/
def parseDesc (d : List Byte) : Desc :=
  let w0 := leAt d 0 4
  ⟨byteAt d 0, w0 / 256 % 2 == 1, w0 / 512 % 2 == 1, w0 / 1024 % 2 == 1, w0 / 65536 % 16384, leAt d 4 4 % 0x2000000,
   BitVec.ofNat 64 (leAt d 8 8), slice d 0x10 8, leAt d 0x18 2, descCookie d,
   w0 / 2048 % 32 == 0 && w0 / 0x40000000 == 0 && leAt d 4 4 / 0x2000000 == 0 && leAt d 0x1A 2 == 0⟩

/-- The operation of an opcode (Table 9.2). -/
def opOf (c : Nat) : Option WorkOp :=
  match c with
  | 0 => some .nop | 1 => some .control | 2 => some .bulkOut | 3 => some .bulkIn | 4 => some .oneOut | 5 => some .bcast
  | _ => none

/-- The trunk of an entry: of its context, or of its BCAST. -/
def Desc.trunk (d : Desc) (s : State) : Nat := if d.opcode = 5 then byteAt d.param 0 % 8 else (s.ctx d.ctx).trunk

/-- An entry is well-formed but for its chain (R308, Table 9.2). -/
def Desc.wf (d : Desc) (s : State) : Bool :=
  let c := s.ctx d.ctx
  d.zeros && (!d.chain || d.addr.toNat % 16 == 0) && match d.opcode with
  | 0 => d.ctx == 0 && d.length == 0 && allZero d.param
  | 1 => c.used && c.ep == 0 && c.kind == 5 && d.length == setupLen d.param && decide (d.length ≤ 1024)
  | 2 => c.used && c.kind == 4 && decide (d.length ≤ 16777216) && allZero d.param
  | 3 => c.used && c.kind == 3 && decide (1 ≤ d.length) && decide (d.length ≤ 16777216) && allZero d.param
  | 4 => c.used && c.kind == 2 && decide (1 ≤ d.length) && decide (d.length ≤ c.longest) && allZero d.param
  | 5 => d.ctx == 0 && decide (1 ≤ d.length) && decide (d.length ≤ 64) && d.urgent && s.exists? (byteAt d.param 0 % 8)
      && byteAt d.param 0 / 8 == 0 && byteAt d.param 1 / 8 == 0 && allZero (d.param.drop 2)
  | _ => false

/-- The crew owns no work-ring channel (R340). -/
def State.hasChannel (s : State) (k : Nat) : Bool :=
  match s.img.applied with
  | some im => im.chans.any (fun c => c.owner == k && c.purpose == 0)
  | none => false

/-- How the fetcher settles an entry without a transfer context. -/
inductive AtFetch where
  | take | okay | notExecuted | denied | noChannel | malformed
  deriving DecidableEq, Repr

/-- The tests of R307, R340 and R380, then those of R308; the manager passes R307.  An entry that lacks a permission raises
the event whichever other test it fails; a context being revoked takes no entry of any owner (R280). -/
def Desc.judge (d : Desc) (k : Nat) (s : State) : AtFetch :=
  let named := decide (1 ≤ d.opcode ∧ d.opcode ≤ 4)
  let c := s.ctx d.ctx
  if (d.urgent && !s.urgentOk k) || (d.opcode == 5 && !s.bcastOk k) then .denied
  else if k ≠ 0 && named && !(c.used && c.owner == k) then .notExecuted
  else if k ≠ 0 && d.opcode == 1 && isStd d.param 3 then .notExecuted
  else if named && c.used && (c.revoking || c.port.isSome) then .notExecuted
  else if !s.hasChannel k && (d.opcode == 5 || decide (0 < d.length)) then .noChannel
  else if !d.wf s then .malformed
  else if d.opcode = 0 then .okay
  else .take

/-- Add a taken entry to its ring: CI advances. -/
def takeEntry (k r : Nat) (d : Desc) (outcome : Option (Nat × Nat)) (s : State) : State :=
  s.updRing k r (fun g => { g with ci := g.ci + 1, ahead := g.ahead.drop 1,
                                   ents := g.ents ++ [⟨d.cmpl, d.cookie, outcome⟩] })

/-- The transfer a descriptor starts. -/
def Desc.xfer (d : Desc) (k r n : Nat) (op : WorkOp) (s : State) : Xfer :=
  let c := s.ctx d.ctx
  let out := op == .bulkOut && d.length == 0
  { seq := s.seq, crew := k, origin := .ring k r n, op := op, trunk := d.trunk s,
    ctx := if op = .bcast then none else some d.ctx, addr := if op = .bcast then 0 else c.addr,
    ep := if op = .bcast then byteAt d.param 1 % 8 else c.ep,
    urgent := d.urgent && (op == .control || op == .oneOut || op == .bcast), length := d.length, buf := d.addr,
    chain := d.chain, links := if d.chain then [] else [(d.addr, d.length)], linkAddr := d.addr, ready := !d.chain,
    walkEnd := !d.chain,
    setup := if op = .control then d.param else [], nakFrames := d.nak, cookie := d.cookie,
    items := if out then [{ data := [], te := true }] else [] }

/-- Results of a malformed entry are open (R48): it completes with an open status and byte count. -/
def malformedOutcome (s : State) : (Nat × Nat) × State :=
  let (a, s) := freeValue s
  let (b, s) := freeValue s
  ((a % 18, b % 0x100000000), s)

/-- The fetcher takes the entry at CI (R307, R311, R313, R340). -/
def takeDesc (k r : Nat) (bytes : List Byte) (s : State) : State :=
  let d := parseDesc bytes
  let g := s.ring k r
  match d.judge k s with
  | .okay => takeEntry k r d (some (stOk, 0)) s
  | .notExecuted => takeEntry k r d (some (stNotExecuted, 0)) s
  | .denied => raiseBoth k .ringPermDenied 255 (pairDetail k r) (takeEntry k r d (some (stNotExecuted, 0)) s)
  | .noChannel =>
    let s := takeEntry k r d (some (stNotExecuted, 0)) s
    if g.noChanTold then s
    else raiseBoth k .dmaNoChannel 255 (pairDetail k r) (s.updRing k r (fun g => { g with noChanTold := true }))
  | .malformed =>
    let (o, s) := malformedOutcome s
    takeEntry k r d (some o) s
  | .take =>
    match opOf d.opcode with
    | none => s
    | some op =>
      let n := d.trunk s
      if s.tcQuota k n ≤ s.tcUsed k n then s
      else match Keyed.lowestFree s.xfers 4096 0 with
      | none => s
      | some i =>
        let x := d.xfer k r g.ci.toNat op s
        let s := takeEntry k r d none { s.setXfer i x with seq := s.seq + 1 }
        if d.chain then askRead 32 ⟨k, d.addr, 16, .link i⟩ s else reachCox i s

/-- Ring `r` of crew `k` may be served (R312). -/
def State.serves (s : State) (k r : Nat) : Bool :=
  s.crewRuns k && (s.ring k r).state == .running && (s.ring k r).pi != (s.ring k r).ci
    && (!(s.ring k r).ahead.isEmpty || !(s.ring k r).fetching)

/-- The next ring of a crew in rotation that may be served. -/
def State.nextRing (s : State) (k : Nat) : Option Nat :=
  ((List.range 8).map (fun i => ((s.crew k).ringPtr + i) % 8)).find? (s.serves k)
/-- The next crew in rotation with such a ring. -/
def State.nextFetch (s : State) : Option (Nat × Nat) :=
  ((List.range 64).map (fun i => (s.fetchPtr + i) % 64)).findSome? (fun k => (s.nextRing k).map (fun r => (k, r)))

/-- Read up to 4 descriptors, never past PI or the end of the ring (R312). -/
def readDescs (k r : Nat) (s : State) : State :=
  let g := s.ring k r
  let size := 2 ^ g.sizeLog2
  let slot := g.ci.toNat % size
  let n := min 4 (min (g.pi - g.ci).toNat (size - slot))
  askRead 32 ⟨k, g.base + BitVec.ofNat 64 (32 * slot), 32 * n, .desc k r g.ci.toNat n⟩
    (s.updRing k r (fun g => { g with fetching := true }))

/-- One turn of the fetcher (R312). -/
def fetchOnce (s : State) : State :=
  match s.nextFetch with
  | none => s
  | some (k, r) =>
    let t := { s with fetchPtr := (k + 1) % 64 }.updCrew k (fun c => { c with ringPtr := (r + 1) % 8 })
    match (s.ring k r).ahead with
    | [] => readDescs k r t
    | d :: _ => takeDesc k r d t

/-! Reads of descriptors and links coming back (R310, R311, R323). -/

/-- Cut a byte string into descriptors of 32 bytes. -/
def cut32 : Nat → List Byte → List (List Byte)
  | 0, _ => []
  | n + 1, b => b.take 32 :: cut32 n (b.drop 32)

/-- Descriptors arrive; a failed fetch fails the entry at CI, whose cookie reads 0, and halts the ring (R323). -/
def descArrived (k r n : Nat) (data : Option (List Byte)) (s : State) : State :=
  let g := s.ring k r
  if g.state ≠ .running then s
  else match data with
  | some b => s.updRing k r (fun g => { g with ahead := cut32 n b, fetching := false })
  | none =>
    let s := s.updRing k r (fun g => { g with ci := g.ci + 1, fetching := false,
                                              ents := g.ents ++ [⟨true, 0, some (stHostMemErr, 0)⟩] })
    haltRing k r stHostMemErr g.ci.toNat s

/-- A malformed chain: its results are open (R48, R308). -/
def malformedXfer (i : Nat) (s : State) : State :=
  let (o, s) := malformedOutcome s
  completeXfer i o.1 o.2 s

/-- A chain link (Table 9.3). -/
structure Link where
  addr : Addr
  len : Nat
  jump : Bool
  last : Bool
  wf : Bool
  deriving DecidableEq, Repr

/-- Read a link's fields. -/
def parseLink (b : List Byte) : Link :=
  let addr := BitVec.ofNat 64 (leAt b 0 8)
  let len := leAt b 8 3
  let flags := leAt b 12 4
  let jump := flags % 2 == 1
  let last := flags / 2 % 2 == 1
  ⟨addr, len, jump, last, byteAt b 11 == 0 && decide (flags < 4) && !(jump && last)
    && (if jump then len == 0 && addr.toNat % 16 == 0 else len != 0)⟩
/-- Where the walk goes from a link at an address. -/
def Link.next (l : Link) (a : Addr) : Addr := if l.jump then l.addr else a + 16

/-- A link arrives at the fetcher (R310, R311): data links count their bytes, a jump moves the walk, an end ends it; the
256th link without an end leaves the walk to `CHAIN_LIMIT`. -/
def linkArrived (i : Nat) (data : Option (List Byte)) (s : State) : State :=
  match s.xfer i with
  | none => s
  | some x =>
    match data with
    | none => failXfer i stHostMemErr s
    | some b =>
      let l := parseLink b
      let x := { x with linksRead := x.linksRead + 1, linkSum := x.linkSum + if l.jump then 0 else l.len }
      if l.last && l.wf && decide (x.linkSum = x.length) then reachCox i (s.setXfer i { x with linkAddr := x.buf, ready := true })
      else if 256 ≤ x.linksRead ∧ l.last = false then s.setXfer i { x with chainOver := true }
      else if !l.wf || l.last then malformedXfer i (s.setXfer i x)
      else askRead 32 ⟨x.crew, l.next x.linkAddr, 16, .link i⟩ (s.setXfer i { x with linkAddr := l.next x.linkAddr })

/-! Meanings. -/

/-- `RNG_ENABLE` (R300). -/
def execRngEnable (acc : Acc) (crew : Fin 64) (ring : Fin 8) (s : State) : Host.Outcome State Fault Refusal :=
  finish (ringEnable acc crew ring s)
/-- `RNG_SHUTDOWN` (R325). -/
def execRngShutdown (acc : Acc) (crew : Fin 64) (ring : Fin 8) (s : State) : Host.Outcome State Fault Refusal :=
  finish (ringShutdown acc crew ring s)
/-- `RNG_RESTART` (R323). -/
def execRngRestart (acc : Acc) (crew : Fin 64) (ring : Fin 8) (s : State) : Host.Outcome State Fault Refusal :=
  finish (ringRestart acc crew ring s)
/-- `CQ_ENABLE` (R301). -/
def execCqEnable (acc : Acc) (crew : Fin 64) (cq : Fin 8) (s : State) : Host.Outcome State Fault Refusal :=
  finish (cqEnableOp acc crew cq s)
/-- `CQ_DISABLE` (R301). -/
def execCqDisable (acc : Acc) (crew : Fin 64) (cq : Fin 8) (s : State) : Host.Outcome State Fault Refusal :=
  finish (cqDisableOp acc crew cq s)
/-- `RNG_PI_WRITE` (R303). -/
def execRngPiWrite (acc : Acc) (crew : Fin 64) (ring : Fin 8) (value : Word) (s : State) :
    Host.Outcome State Fault Refusal :=
  finish (ringPi acc crew ring value s)
/-- `CQ_HEAD_WRITE` (R304). -/
def execCqHeadWrite (acc : Acc) (crew : Fin 64) (cq : Fin 8) (value : Word) (s : State) :
    Host.Outcome State Fault Refusal :=
  finish (cqHead acc crew cq value s)
/-- `FETCH_TURN` (R312). -/
def execFetchTurn (s : State) : Host.Outcome State Fault Refusal := finish (fetchOnce s)
/-- `CHAIN_LIMIT` (R311): the walk read 256 links without an end. -/
def execChainLimit (xfer : Fin 4096) (s : State) : Host.Outcome State Fault Refusal :=
  finish (match s.xfer xfer with
    | some x => if x.chainOver && !x.ended then failXfer xfer stChainLimit s else s
    | none => s)

end Sys2Proof.Machine
end

