-- ==== Sys2Proof/Machine/Records.lean ====
section
/-! DEFINITION. Completion records (R317 to R320, R326, R328). -/

namespace Sys2Proof.Machine

/-- A record due: entries covered, run, status, bytes, cookie. -/
structure Record where
  count : Nat
  run : Bool
  status : Nat
  bytes : Nat
  cookie : Word
  deriving DecidableEq, Repr

/-- An entry that needs no record of its own (R318). -/
def RingEnt.quiet (e : RingEnt) : Bool :=
  match e.outcome with | some (st, _) => st == stOk && !e.cmpl | none => false
/-- An entry that completed `ABORTED`. -/
def RingEnt.aborted (e : RingEnt) : Bool :=
  match e.outcome with | some (st, _) => st == stAborted | none => false

/-- The next record of a ring, if one may be written (R318, R326): of a STOPPING ring an open batch is
closed before an `ABORTED` entry or at its end, and a run of `ABORTED` entries has one record. -/
def Ring.nextRecord (g : Ring) : Option Record :=
  let ok := (g.ents.takeWhile (·.quiet)).length
  let rest := g.ents.drop ok
  let closeOk : Option Record :=
    if ok = 0 then none
    else (g.ents[ok - 1]?).map (fun e => ⟨ok, false, stOk, (e.outcome.getD (0, 0)).2, e.cookie⟩)
  match rest with
  | [] => if g.state = .stopping ∧ g.untaken = 0 then closeOk else none
  | e :: _ =>
    match e.outcome with
    | none => none
    | some (st, b) =>
      if g.state = .stopping ∧ st = stAborted then
        if ok ≠ 0 then closeOk
        else
          let run := rest.takeWhile (·.aborted)
          match rest.drop run.length with
          | [] => (run.getLast?).map (fun l => ⟨run.length, true, stAborted, 0, l.cookie⟩)
          | f :: _ => if f.outcome.isNone then none
                      else (run.getLast?).map (fun l => ⟨run.length, true, stAborted, 0, l.cookie⟩)
      else some ⟨ok + 1, false, st, b, e.cookie⟩

/-- The 16 bytes of a record (Table 9.4): `last` is the count of the last covered entry. -/
def Record.bytes16 (x : Record) (ring : Nat) (last : Nat) (phase : Bool) : List Byte :=
  leBytes 4 (last % 0x10000 + ring % 8 * 0x10000 + x.status * 0x1000000)
    ++ leBytes 4 (x.count + bit x.run * 0x40000000 + bit phase * 0x80000000)
    ++ leBytes 4 (if x.run then 0 else x.bytes) ++ leBytes 4 x.cookie.toNat

/-- Phase of count `c` in a queue of 2^s records (R317). -/
def phaseOf (c : Word) (s : Nat) : Bool := !c.getLsbD s
/-- Records in a queue. -/
def Cq.full (c : Cq) : Bool := decide (2 ^ c.sizeLog2 ≤ (c.tail - c.head).toNat)

/-- Where ring `r`'s next record goes in host memory, and its bytes (R317). -/
def State.recordAt (s : State) (k r : Nat) (x : Record) : Addr × List Byte :=
  let g := s.ring k r
  let c := s.cq k g.cq
  (c.base + BitVec.ofNat 64 (16 * (c.tail.toNat % 2 ^ c.sizeLog2)),
    x.bytes16 r (g.done + BitVec.ofNat 32 (x.count - 1)).toNat (phaseOf c.tail c.sizeLog2))

/-- A record's write has gone to the host: the covered entries leave, their transfer contexts go back, TAIL and DONE advance,
and the vector is signalled after the write (R314, R317, R319, R491). -/
def putRecord (k r : Nat) (x : Record) (s : State) : State :=
  let g := s.ring k r
  let covered := fun (y : Nat × Xfer) => match y.2.origin with
    | .ring k' r' n => k' == k && r' == r && decide ((BitVec.ofNat 32 n - g.done).toNat < x.count)
    | _ => false
  let s := s.updCq k g.cq (fun c => { c with tail := c.tail + 1, stalled := false })
  let s := s.updRing k r (fun g => { g with done := g.done + BitVec.ofNat 32 x.count, ents := g.ents.drop x.count })
  signalVector k (s.cq k g.cq).vector { s with xfers := s.xfers.filter (fun y => !covered y) }

/-- A record that may be written now, were the grant had (R318, R320, R545). -/
def State.recordDue (s : State) (k r : Nat) : Bool :=
  let c := s.cq k (s.ring k r).cq
  (s.ring k r).nextRecord.isSome && (s.crew k).bme && c.enabled && s.crewRuns k && !c.full
    && !(c.waiters.head?).any (· ≠ r)

/-- A record of ring `r` waits behind those that already wait on the queue (R320, R322). -/
def Cq.wait (c : Cq) (r : Nat) : Cq := { c with waiters := if c.waiters.contains r then c.waiters else c.waiters ++ [r] }

/-- Write a ring's next record, in the order in which the records of the rings that share the queue came due, or stall on a
full queue once (R320, R322); the write takes a unit of the completion writer's (Table 12.3).  A crew that is being reset has
the records of R328 and no others. -/
def writeRecord (k r : Nat) (s : State) : State :=
  let g := s.ring k r
  match g.nextRecord with
  | none => s
  | some x =>
    let c := s.cq k g.cq
    if !(s.crew k).bme || !c.enabled || !s.crewRuns k then s
    else if c.full then
      let s := s.updCq k g.cq (fun c => { c.wait r with stalled := true })
      if c.stalled then s else raise k .cqStalled 255 (pairDetail g.cq 0) s
    else if !s.granted 2 33 || (c.waiters.head?).any (· ≠ r) then s.updCq k g.cq (·.wait r)
    else
      let w := s.recordAt k r x
      let s := s.updCq k g.cq (fun c => { c with waiters := c.waiters.drop 1 })
      ringStopDone k r (putRecord k r x (emit (.hostWrite k w.1 w.2) (useGrant 2 s)))

/-- The at most two records of a ring at a crew reset (R328); one that finds its queue full is not written. -/
def resetRecords (k r : Nat) (s : State) : State :=
  let g := s.ring k r
  let n := (g.pi - g.done).toNat
  let okN := (g.ents.takeWhile (fun e => match e.outcome with | some (st, _) => st == stOk | none => false)).length
  let put := fun (x : Record) (s : State) =>
    let w := s.recordAt k r x
    if (s.cq k g.cq).full then s else putRecord k r x (enqueue 33 k (.write w.1 w.2 none) s)
  let cookieAt := fun (i : Nat) (s : State) => match g.ents[i]? with
    | some e => (e.cookie, s)
    | none => match g.ahead[i - g.ents.length]? with
      | some d => (descCookie d, s)
      | none => let (v, s) := freeValue s; (BitVec.ofNat 32 v, s)
  if g.state = .disabled ∨ n = 0 then s
  else
    let s := if okN = 0 then s
      else put ⟨okN, false, stOk, (((g.ents[okN - 1]?).bind (·.outcome)).getD (0, 0)).2, (cookieAt (okN - 1) s).1⟩ s
    if okN = n then s
    else
      let (ck, s) := cookieAt (n - 1) s
      put ⟨n - okN, true, stCrewReset, 0, ck⟩ s

/-- `COMPLETION_RECORD_WRITE` (R318). -/
def execCompletionRecordWrite (crew : Fin 64) (ring : Fin 8) (s : State) : Host.Outcome State Fault Refusal :=
  finish (writeRecord crew ring s)

end Sys2Proof.Machine
end

