-- ==== Sys2Proof/Machine/Dma.lean ====
section
/-! DEFINITION. Work-ring channels and sample-stream channels (chapter 10). -/

namespace Sys2Proof.Machine


/-- A channel register of channel `c` takes an access (R361): the manager through the DMA block, its owner
through the window. -/
def State.chAccess (s : State) (acc : Acc) (k c : Nat) : Bool :=
  s.regOk acc k .dma && (acc == .bar0 || s.chOwner c == k)
/-- Offset of channel `c`'s register in the BAR an access uses. -/
def chOffset (acc : Acc) (c reg : Nat) : Nat :=
  match acc with | .bar0 => 0x181000 + 0x40 * c + reg | .window => 0x1000 + 0x40 * c + reg

/-! Host writes and their bounds (R336). -/

/-- Cut a write into requests of at most `mps` bytes that cross no 4 KiB boundary. -/
def cutWrites : Nat → Nat → Addr → List Byte → List (Addr × List Byte)
  | 0, _, _, _ => []
  | f + 1, mps, a, b =>
    if b.isEmpty then []
    else
      let n := min (max 1 mps) (4096 - a.toNat % 4096)
      (a, b.take n) :: cutWrites f mps (a + BitVec.ofNat 64 n) (b.drop n)

/-- Host writes of channel `c` wait for their grants in order (R334, R393). -/
def queueWrites (c : Nat) (l : List (Addr × List Byte)) (s : State) : State :=
  l.foldl (fun s w => enqueue c (s.chOwner c) (.write w.1 w.2 none) s) s

/-- The writes of a sample into a circular buffer at a cursor (R348). -/
def circWrites (base : Addr) (w : Nat) (cursor : Word) (mps : Nat) (b : List Byte) : List (Addr × List Byte) :=
  let o := cursor.toNat % 2 ^ w
  let n := 2 ^ w - o
  cutWrites 65 mps (base + BitVec.ofNat 64 o) (b.take n) ++ cutWrites 65 mps base (b.drop n)

/-! Stream channels. -/

/-- The conditions of R342 for enabling a channel. -/
def State.chEnableOk (s : State) (c : Nat) : Bool :=
  let h := s.ch c
  s.isStream c && decide (4 ≤ h.sizeLog2) && decide (h.sizeLog2 ≤ 12) && aligned64 h.ringBase
    && (h.dirOut || (decide (12 ≤ h.w) && decide (h.w ≤ 24) && h.circBase.toNat % 2 ^ h.w == 0))
    && (!h.record || (decide (4 ≤ h.cqSizeLog2) && decide (h.cqSizeLog2 ≤ 12) && aligned64 h.cqBase))

/-- `DCH_CTRL.enable` (R342). -/
def chEnable (acc : Acc) (k c : Nat) (s : State) : State :=
  if !s.chAccess acc k c || (s.ch c).state ≠ .disabled then s
  else if s.chEnableOk c then
    s.updCh c (fun h => { h with state := .running, pi := 0, ci := 0, cursor := 0, cqHead := 0, cqTail := 0,
                                 ownWait := false, cqStalled := false, desc := none, fetching := false, back := false,
                                 staged := none, srcAsked := false, due := none, staging := [] })
  else cfgReject (accFn acc k) (chOffset acc c 0x3C) s

/-- The slot of the descriptor at CI. -/
def Ch.slotAddr (h : Ch) : Addr := h.ringBase + BitVec.ofNat 64 (32 * (h.ci.toNat % 2 ^ h.sizeLog2))
/-- Read the descriptor at CI. -/
def askDesc (c : Nat) (s : State) : State :=
  askRead c ⟨s.chOwner c, (s.ch c).slotAddr, 32, .chDesc c⟩ (s.updCh c (fun h => { h with fetching := true }))
/-- Read the descriptor at CI, where the channel has none in hand (R342, R349). -/
def chFetch (c : Nat) (s : State) : State :=
  let h := s.ch c
  if h.state = .running ∧ h.desc = none ∧ h.fetching = false ∧ h.due = none ∧ h.ownWait = false ∧ h.back = false
      ∧ h.pi ≠ h.ci then askDesc c s
  else s

/-- The channel holds no read, outstanding or waiting. -/
def State.chQuiet (s : State) (c : Nat) : Bool :=
  !s.pci.tags.any (fun t => t.2.use.channel == some c) && !s.pci.queue.any (·.reads (fun u => u.channel == some c))
/-- Bytes of a channel's sample data that still wait in its staging buffer for their writes (R335). -/
def State.queuedBytes (s : State) (c : Nat) : Nat :=
  (s.pci.queue.map (fun q => if q.req = c then (match q.body with | .write _ b _ => b.length | _ => 0) else 0)).sum
/-- A stream channel may make its access to EPM: it holds the data path's grant, and the staging buffer has room for the
largest sample (R335). -/
def State.beatOk (s : State) (c : Nat) : Bool := s.granted 1 c && decide (s.queuedBytes c + 64 ≤ 1024)

/-- `n` open bytes (log 1). -/
def freeBytes : Nat → State → List Byte × State
  | 0, s => ([], s)
  | n + 1, s =>
    let (v, s) := freeValue s
    let r := freeBytes n s
    (BitVec.ofNat 8 v :: r.1, r.2)

/-- Bytes 0x00 to 0x1B of a completed descriptor (Table 10.3). -/
def wbBody (desc : List Byte) (x : StreamRec) (dirOut : Bool) : List Byte :=
  if dirOut then desc.take 28
  else leBytes 2 (leAt desc 0 2) ++ leBytes 2 x.ctx ++ leBytes 4 x.bytes ++ leBytes 8 0 ++ leBytes 8 x.stamp
    ++ leBytes 4 x.cursor.toNat

/-- The frame field of a completion that copied nothing: that of the completion on an OUT channel (Table 10.3), open on an
IN channel (log 1). -/
def chFrame (c : Nat) (s : State) : Nat × State :=
  if (s.ch c).dirOut then (s.frame % 65536, s) else let (f, s) := freeValue s; (f % 65536, s)

/-- A descriptor is to be written back: its body, then status and frame with OWN 0 (R349). -/
def writeBack (c : Nat) (body : List Byte) (x : StreamRec) (s : State) : State :=
  let d := (s.ch c).slotAddr
  let s := queueWrites c [(d, body)] s
  let s := enqueue c (s.chOwner c) (.write (d + 28) (leBytes 4 (x.status + x.frame % 65536 * 256)) (some x.irq)) s
  s.updCh c (fun h => { h with back := true, due := none, staged := none, srcAsked := false, staging := [] })

/-- A descriptor's irq bit (Table 10.3). -/
def descIrq (d : List Byte) : Bool := leAt d 0 4 / 512 % 2 == 1

/-- The next descriptor of a STOPPING write-back channel is written back `ABORTED`, once it has been read (R357, log 63). -/
def abortBack (c : Nat) (s : State) : State :=
  let h := s.ch c
  if h.back then s
  else match h.desc with
  | some d =>
    let (v, s) := chFrame c s
    writeBack c (d.take 28) { status := stAborted, frame := v, irq := descIrq d } s
  | none => if h.fetching then s else askDesc c s

/-- A STOPPING channel whose reads have completed and whose descriptors are covered is DISABLED (R357). -/
def chStopDone (c : Nat) (s : State) : State :=
  let h := s.ch c
  if h.state = .stopping ∧ h.due = none ∧ h.back = false ∧ h.pi = h.ci ∧ s.chQuiet c then
    raise (s.chOwner c) .dmaChStopped 255 (pairDetail c 0) (s.updCh c (fun h => { h with state := .disabled }))
  else s

/-- The record of an abort in record mode (R357): one of its own for the descriptor in progress, then one run for the
rest. -/
def abortRec (h : Ch) (n frame : Nat) : StreamRec :=
  match h.desc with
  | some d => { ctx := leAt d 2 2 % 16384, status := stAborted, cursor := h.cursor, frame := frame }
  | none => { run := true, status := stAborted, count := n, cursor := h.cursor, frame := frame }

/-- Abort what a STOPPING channel has left once no completion is due or on its way (R357). -/
def chAbortRest (c : Nat) (s : State) : State :=
  let h := s.ch c
  let n := (h.pi - h.ci).toNat
  if h.state ≠ .stopping ∨ h.due ≠ none ∨ h.back then s
  else if n = 0 then chStopDone c s
  else if h.record then
    let (v, s) := chFrame c s
    s.updCh c (fun h => { h with due := some (abortRec h n v), desc := none })
  else abortBack c s

/-- A descriptor completes (R349, R350): its write-back, or its record, is due. -/
def chComplete (c : Nat) (x : StreamRec) (s : State) : State :=
  let h := s.ch c
  if h.record then s.updCh c (fun h => { h with due := some x, staged := none, srcAsked := false, staging := [] })
  else writeBack c (wbBody (h.desc.getD []) x h.dirOut) x s

/-- The last write of a descriptor's write-back has gone: CI advances, and with irq set the vector is signalled (R349). -/
def backDone (c : Nat) (irq : Bool) (s : State) : State :=
  let s := s.updCh c (fun h => { h with ci := h.ci + 1, desc := none, back := false })
  let s := if irq then signalVector (s.chOwner c) (s.ch c).vector s else s
  if (s.ch c).state = .stopping then chAbortRest c s else chFetch c s

/-- A stream channel enters HALTED (R354); one that is STOPPING goes on stopping. -/
def chHalt (c : Nat) (s : State) : State :=
  if (s.ch c).state = .stopping then s
  else raiseBoth (s.chOwner c) .dmaChHalted 255 (pairDetail c 0)
    (s.updCh c (fun h => { h with state := .halted, haltStatus := stHostMemErr, haltIndex := h.ci.toNat % 65536,
                                  fetching := false }))

/-- `DCH_CTRL.stop` (R357). -/
def chStop (acc : Acc) (k c : Nat) (s : State) : State :=
  let h := s.ch c
  if !s.chAccess acc k c || !(h.state == .running || h.state == .halted) then s
  else
    let s := discardReads (fun u => u == .stageSrc c || (h.record && u == .chDesc c)) s
    chAbortRest c (s.updCh c (fun h => { h with state := .stopping, fetching := h.fetching && !h.record, srcAsked := false,
                                                staging := [], staged := none, ownWait := false }))

/-- `DCH_CTRL.restart` (R354). -/
def chRestart (acc : Acc) (k c : Nat) (s : State) : State :=
  if s.chAccess acc k c && (s.ch c).state == .halted then
    chFetch c (s.updCh c (fun h => { h with state := .running, desc := none, fetching := false, staged := none,
                                            srcAsked := false, staging := [] }))
  else s

/-- `DCH_PI` (R349, R358). -/
def chPi (acc : Acc) (k c : Nat) (p : Word) (s : State) : State :=
  let h := s.ch c
  if !s.chAccess acc k c || h.state == .disabled then s
  else if piOk p h.pi h.ci h.sizeLog2 then
    let s := s.updCh c (fun h => { h with pi := p, ownWait := false })
    if h.state = .stopping then chAbortRest c s else chFetch c s
  else raise (s.chOwner c) .dmaIndexInvalid 255 (pairDetail c 0) s

/-- `DCH_CQ_HEAD` (R350, R358). -/
def chCqHead (acc : Acc) (k c : Nat) (v : Word) (s : State) : State :=
  let h := s.ch c
  if !s.chAccess acc k c || h.state == .disabled || !h.record then s
  else if headOk v h.cqHead h.cqTail h.cqSizeLog2 then
    s.updCh c (fun h => { h with cqHead := v,
                                 cqStalled := h.cqStalled && decide (2 ^ h.cqSizeLog2 ≤ (h.cqTail - v).toNat) })
  else raise (s.chOwner c) .dmaIndexInvalid 255 (pairDetail c 0) s

/-! Bindings (R344). -/

/-- Contexts bound to a channel. -/
def State.boundCount (s : State) (c : Nat) : Nat := (s.ctxs.filter (fun x => x.2.channel == some c)).length

/-- The reason of a bind or an unbind (Table 10.5). -/
def State.bindReason (s : State) (k x c : Nat) (un : Bool) : Nat :=
  let e := s.ctx x
  if !(e.used && !e.revoking && e.owner == k && s.chOwner c == k) then bdNotOwned
  else if !(e.kind == 1 && s.isStream c && !(s.ch c).dirOut) then bdKind
  else if un then (if e.channel = some c then bdOk else bdBound)
  else if e.channel.isSome then bdBound
  else if 1024 ≤ s.boundCount c then bdLimit
  else bdOk

/-- End a context's binding. -/
def unbindCtx (x : Nat) (s : State) : State :=
  match (s.ctx x).channel with
  | none => s
  | some c => (s.updCtx x (fun e => { e with channel := none })).updCh c
      (fun h => { h with pend := h.pend.filter (· ≠ x) })

/-- A bind or unbind command; a sample already waiting takes its place in the order (log 14). -/
def bindOp (k x c : Nat) (un : Bool) (s : State) : State :=
  let r := s.bindReason k x c un
  if !s.responds .dma || !s.crewRuns k then s
  else
    let s := s.updCrew k (fun w => { w with bindReason := r })
    if r ≠ bdOk then s
    else if un then unbindCtx x s
    else
      let s := s.updCtx x (fun e => { e with channel := some c })
      if (s.ctx x).epm.state = .full then s.updCh c (fun h => { h with pend := h.pend ++ [x] }) else s

/-! Descriptors (R343 to R347, R359). -/

/-- A DMA descriptor is well-formed for its channel (R343, Table 10.3): the stamp and cursor of a STAGE are zero. -/
def chDescWf (d : List Byte) (dirOut : Bool) : Bool :=
  let op := byteAt d 0
  let w0 := leAt d 0 4
  w0 / 1024 % 64 == 0 && w0 / 0x40000000 == 0 && leAt d 4 4 / 128 == 0 && leAt d 0x1C 4 / 0x1000000 % 128 == 0
    && (if dirOut then op == 3 && decide (1 ≤ leAt d 4 4) && decide (leAt d 4 4 ≤ 64) && allZero (slice d 0x10 12)
        else (op == 1 || op == 2) && leAt d 4 4 == 0 && leAt d 8 8 == 0 && (op == 2 || w0 / 65536 == 0))

/-- A malformed descriptor completes with an open status, byte count, frame and stamp (R48, R359). -/
def chMalformed (c : Nat) (s : State) : State :=
  let (a, s) := freeValue s
  let (b, s) := freeValue s
  let (f, s) := freeValue s
  let (t, s) := freeValue s
  chComplete c { status := a % 18, bytes := b % 128, frame := f % 65536, stamp := t, cursor := (s.ch c).cursor } s

/-- The context a descriptor names (Table 10.3). -/
def descCtx (d : List Byte) : Nat := leAt d 2 2 % 16384

/-- The ownership test of a READ or a STAGE: its context is a periodic one, IN or OUT, of the channel's owner (R346, R347). -/
def State.descOwned (s : State) (c : Nat) (d : List Byte) : Bool :=
  let e := s.ctx (descCtx d)
  e.used && e.owner == s.chOwner c && e.kind == (if byteAt d 0 = 3 then 2 else 1)

/-- A completion that touches nothing (R346, R347); frame and stamp are open on an IN channel (log 1). -/
def chNothing (c x st : Nat) (irq : Bool) (s : State) : State :=
  let (f, s) := chFrame c s
  let (t, s) := freeValue s
  chComplete c { ctx := x, status := st, cursor := if (s.ch c).dirOut then 0 else (s.ch c).cursor,
                 frame := f, stamp := t, irq := irq } s

/-- A descriptor arrives: OWN 0 makes a write-back channel wait; a failed fetch halts it (R349, R354).  The ownership tests
hold for a malformed one too (R359).  On a STOPPING channel it is written back `ABORTED`; one that could not be read has open
bytes (R357, log 63). -/
def chDescArrived (c : Nat) (data : Option (List Byte)) (s : State) : State :=
  let s := s.updCh c (fun h => { h with fetching := false })
  if (s.ch c).state = .stopping then
    let (d, s) := match data with | some d => (d, s) | none => freeBytes 32 s
    chAbortRest c (s.updCh c (fun h => { h with desc := some d }))
  else match data with
  | none => chHalt c s
  | some d =>
    if !(s.ch c).record && byteAt d 0x1F < 128 then s.updCh c (fun h => { h with ownWait := true })
    else
      let s := s.updCh c (fun h => { h with desc := some d })
      if chDescWf d (s.ch c).dirOut then s
      else if (byteAt d 0 == 2 || byteAt d 0 == 3) && !s.descOwned c d then chNothing c (descCtx d) stNotExecuted (descIrq d) s
      else chMalformed c s

/-- A channel is ready to process a descriptor of operation `op`. -/
def State.chReady (s : State) (c op : Nat) : Option (List Byte) :=
  let h := s.ch c
  if h.state = .running ∧ h.due = none ∧ h.back = false then
    h.desc.bind (fun d => if byteAt d 0 = op then some d else none)
  else none

/-- Bytes a copy advances the cursor by (R348). -/
def cursorStep (b : Nat) : Word := BitVec.ofNat 32 (16 * ceilDiv b 16)

/-- Copy a sample through the staging buffer to the cursor and complete, after a flushing read where the barrier asks for one
(R335, R348, R351). -/
def chCopy (c x : Nat) (d : List Byte) (st : Nat) (s : State) : State :=
  let h := s.ch c
  let e := (s.ctx x).epm
  let b := e.data
  let fn := s.chOwner c
  let rec_ : StreamRec := { ctx := x, status := st, bytes := b.length, cursor := h.cursor, frame := e.frame,
                            stamp := e.stamp, irq := descIrq d }
  let s := queueWrites c (circWrites h.circBase h.w h.cursor s.pci.maxPayload b) (useGrant 1 s)
  let s := s.updCh c (fun h => { h with cursor := h.cursor + cursorStep b.length })
  if leAt d 0 4 / 256 % 2 = 1 ∧ b ≠ [] then
    let o := (h.cursor.toNat + b.length - 1) % 2 ^ h.w
    askRead c ⟨fn, h.circBase + BitVec.ofNat 64 (o / 4 * 4), 4, .flush c⟩
      (s.updCh c (fun h => { h with due := some { rec_ with flush := true } }))
  else chComplete c rec_ s

/-- An ECC error found at an access to an EPM buffer (R389). -/
def epmError (x : Nat) (ecc : Ecc) (s : State) : State :=
  let e := s.ctx x
  match ecc with
  | .none => s
  | .corrected =>
    { s with cells := if e.trunk % 2 = 0 then { s.cells with epmCorr0 := satAdd 0xFFFF s.cells.epmCorr0 1 }
      else { s.cells with epmCorr1 := satAdd 0xFFFF s.cells.epmCorr1 1 } }
  | .uncorrectable =>
    let s := s.updCtx x (fun e => { e with epm := e.epm.zero })
    let s := match e.channel with
      | some c => s.updCh c (fun h => { h with pend := h.pend.filter (· ≠ x) })
      | none => s
    raiseBoth e.owner .epmEccError e.trunk x s

/-- `CAPTURE` (R345): one access to the buffer, under a grant of the data path.  An uncorrectable error leaves the CAPTURE
waiting for the next sample (R389). -/
def capture (c : Nat) (ecc : Ecc) (s : State) : State :=
  match s.chReady c 1, (s.ch c).pend with
  | some d, x :: rest =>
    if !s.beatOk c then s
    else if ecc = .uncorrectable then epmError x ecc (useGrant 1 s)
    else
      let st := if (s.ctx x).epm.lost then stOverrun else stOk
      let s := chCopy c x d st (epmError x ecc s)
      (s.updCtx x (fun e => { e with epm := { e.epm with state := .used, lost := false } })).updCh c
        (fun h => { h with pend := rest })
  | _, _ => s

/-- `READ` (R346): one access to the buffer where a sample is copied; `NO_DATA` after an uncorrectable error (R389). -/
def readSample (c : Nat) (ecc : Ecc) (s : State) : State :=
  match s.chReady c 2 with
  | none => s
  | some d =>
    let x := descCtx d
    if !s.descOwned c d then chNothing c x stNotExecuted (descIrq d) s
    else if (s.ctx x).epm.state = .never then chNothing c x stNoData (descIrq d) s
    else if !s.beatOk c then s
    else if ecc = .uncorrectable then chNothing c x stNoData (descIrq d) (epmError x ecc (useGrant 1 s))
    else chCopy c x d stOk (epmError x ecc s)

/-- Ask for the next part of a STAGE's source, crossing no 4 KiB boundary (R336). -/
def askSource (c : Nat) (d : List Byte) (s : State) : State :=
  let got := (s.ch c).staging.length
  let a := BitVec.ofNat 64 (leAt d 8 8 + got)
  let n := min (leAt d 4 4 - got) (4096 - a.toNat % 4096)
  askRead c ⟨s.chOwner c, a, n, .stageSrc c⟩ (s.updCh c (fun h => { h with srcAsked := true }))

/-- A STAGE to the buffer of `e` waits for it to read SENT (R368). -/
def Epm.waits (e : Epm) : Bool := e.state == .full && e.stageWait.inForce

/-- `STAGE` (R347, R368): reads its source, then writes the buffer in one access under a grant of the data path, waiting
where the policy says so. -/
def stage (c : Nat) (s : State) : State :=
  match s.chReady c 3 with
  | none => s
  | some d =>
    let x := descCtx d
    let e := s.ctx x
    if !s.descOwned c d then chNothing c x stNotExecuted (descIrq d) s
    else if e.longest < leAt d 4 4 then chMalformed c s
    else match (s.ch c).staged with
    | none => if (s.ch c).srcAsked then s else askSource c d s
    | some b =>
      if e.epm.waits || !s.beatOk c then s
      else
        let s := (useGrant 1 s).updCtx x (fun e => { e with epm := { e.epm with
          state := .full, newer := true, data := b, frame := s.frame } })
        chComplete c { ctx := x, status := stOk, bytes := b.length, frame := s.frame % 65536, irq := descIrq d } s

/-- A stream channel has an access to EPM to make (R394). -/
def State.streamWants (s : State) (c : Nat) : Bool :=
  decide (s.queuedBytes c + 64 ≤ 1024)
    && (((s.chReady c 1).isSome && !(s.ch c).pend.isEmpty)
      || (s.chReady c 2).any (fun d => s.descOwned c d && (s.ctx (descCtx d)).epm.state != .never)
      || (s.chReady c 3).any (fun d => s.descOwned c d && (s.ch c).staged.isSome && !(s.ctx (descCtx d)).epm.waits))

/-- A part of a STAGE's source arrives. -/
def sourceArrived (c : Nat) (data : Option (List Byte)) (s : State) : State :=
  match data with
  | none =>
    let s := chHalt c s
    let d := (s.ch c).desc.getD []
    chComplete c { ctx := descCtx d, status := stHostMemErr, frame := s.frame % 65536, irq := descIrq d } s
  | some b =>
    match (s.ch c).desc with
    | none => s
    | some d =>
      let s := s.updCh c (fun h => { h with staging := h.staging ++ b })
      let h := s.ch c
      if h.staging.length < leAt d 4 4 then askSource c d s
      else s.updCh c (fun h => { h with staged := some (h.staging.take (leAt d 4 4)), staging := [] })

/-- A flushing read ends (R351, R354): success lets the completion go, failure halts the channel and the
descriptor completes `HOST_MEM_ERR` with bytes 0. -/
def flushDone (c : Nat) (ok : Bool) (s : State) : State :=
  match (s.ch c).due with
  | none => s
  | some x =>
    if ok then chComplete c { x with flush := false } (s.updCh c (fun h => { h with due := none }))
    else chComplete c { x with flush := false, status := stHostMemErr, bytes := 0 }
      (chHalt c (s.updCh c (fun h => { h with due := none })))

/-- The 16 bytes of a stream record (Table 10.6). -/
def StreamRec.bytes16 (x : StreamRec) (last : Nat) (phase : Bool) : List Byte :=
  leBytes 4 (last % 0x10000 + (if x.run then 0 else x.ctx % 16384 * 0x10000) + bit x.run * 0x40000000
      + bit phase * 0x80000000)
    ++ leBytes 4 (x.status + (if x.run then 0 else x.bytes % 128 * 0x100) + x.count % 8192 * 0x10000)
    ++ leBytes 4 x.cursor.toNat ++ leBytes 4 (x.frame % 65536)

/-- A stream record may go, its queue's room and the grant apart: it follows the data of its descriptor (R350, R351). -/
def State.streamDue (s : State) (c : Nat) : Bool :=
  (s.ch c).due.any (fun x => !x.flush) && (s.ch c).record && (s.crew (s.chOwner c)).bme && !s.pci.queue.any (fun q => q.req == c)
/-- The channel's completion queue is full. -/
def Ch.cqFull (h : Ch) : Bool := decide (2 ^ h.cqSizeLog2 ≤ (h.cqTail - h.cqHead).toNat)

/-- `STREAM_RECORD_WRITE` (R350): written under a grant of the completion writer's, or stalled on a full queue once. -/
def streamRecord (c : Nat) (s : State) : State :=
  let h := s.ch c
  match h.due with
  | none => s
  | some x =>
    if !s.streamDue c then s
    else if h.cqFull then
      if h.cqStalled then s
      else raise (s.chOwner c) .dmaCqStalled 255 (pairDetail c 0) (s.updCh c (fun h => { h with cqStalled := true }))
    else if !s.granted 2 33 then s
    else
      let a := h.cqBase + BitVec.ofNat 64 (16 * (h.cqTail.toNat % 2 ^ h.cqSizeLog2))
      let last := (h.ci + BitVec.ofNat 32 (x.count - 1)).toNat
      let s := emit (.hostWrite (s.chOwner c) a (x.bytes16 last (phaseOf h.cqTail h.cqSizeLog2))) (useGrant 2 s)
      let s := s.updCh c (fun h => { h with cqTail := h.cqTail + 1, ci := h.ci + BitVec.ofNat 32 x.count, due := none,
                                            desc := none, cqStalled := false })
      let s := signalVector (s.chOwner c) h.vector s
      if h.state = .stopping then chAbortRest c s else chFetch c s

/-! Work-ring channels (R338 to R341, R371 to R375). -/

/-- Longest packet of a transfer's data (R185, R186, Table 9.2). -/
def State.pktMax (s : State) (x : Xfer) : Nat :=
  match x.op with
  | .control => match x.ctx with | some c => max 1 (s.ctx c).longest | none => 64
  | .oneOut => x.length
  | .bcast => x.length
  | _ => match x.ctx with | some c => max 1 (s.ctx c).longest | none => 1
/-- The window of a transfer's queue in cells (Table 11.3). -/
def State.window (s : State) (x : Xfer) : Nat :=
  match x.op with
  | .control => 16
  | .oneOut => 1
  | .bcast => 1
  | _ => 8 * ceilDiv (s.pktMax x) 64
/-- Bytes of the next packet of an OUT transfer. -/
def State.nextPkt (s : State) (x : Xfer) : Nat := min (s.pktMax x) (x.length - x.got)
/-- Credits for `n` cells can be taken now (R373). -/
def State.creditOk (s : State) (x : Xfer) (n : Nat) : Bool :=
  x.queue && !x.ptrs.broken && decide (itemCells x.items + x.partCells.length + x.credits + n ≤ s.window x)
    && decide (s.cellsHeld x.crew + n ≤ s.cellQuota x.crew)
/-- A transfer of OUT data can take a beat into its queue. -/
def State.outMoves (s : State) (x : Xfer) : Bool :=
  x.ready && !x.isIn && x.queue && !x.ptrs.broken && decide (x.got + x.partialItem.length < x.length)
    && (!x.partialItem.isEmpty || s.creditOk x (cellsFor (s.nextPkt x)))
/-- A transfer of IN data has bytes in its cells. -/
def Xfer.inMoves (x : Xfer) : Bool := x.isIn && !x.ptrs.broken && x.items.any (fun i => !i.data.isEmpty)

/-- A transfer waits for a channel of its crew (R339). -/
def State.wantsChannel (s : State) (k : Nat) (x : Xfer) : Bool :=
  !x.ended && x.crew == k && x.channel.isNone && (match x.origin with | .ring _ _ _ => true | _ => false)
    && (s.outMoves x || x.inMoves)

/-- The transfer of a list that took its context first. -/
def oldest : List (Nat × Xfer) → Option (Nat × Xfer)
  | [] => none
  | x :: t => match oldest t with
    | some y => if x.2.seq ≤ y.2.seq then some x else some y
    | none => some x

/-- The channel lets its transfer go; what it read ahead is read again later (R339). -/
def releaseChannel (c : Nat) (s : State) : State :=
  match (s.ch c).serve with
  | none => s
  | some i =>
    let turn := decide (4096 ≤ (s.ch c).moved)
    let s := discardReads (fun u => match u with | .payload d _ => d == c | .walk d _ => d == c | _ => false) s
    let s := s.updXfer i (fun x => { x with channel := none, walking := false,
                                            asked := if x.isIn then x.asked else x.got + x.partialItem.length })
    s.updCh c (fun h => { h with serve := none, staging := [], inFlight := [], moved := 0,
                                 last := if turn then ((s.xfer i).map (·.seq)).getD 0 else 0 })

/-- A served transfer can do no more for now: it has moved 4 KiB, or it has no data or credit left (R339).  What an IN
transfer has staged goes to the host first. -/
def State.serveOver (s : State) (c : Nat) : Bool :=
  let h := s.ch c
  match h.serve with
  | none => true
  | some i => match s.xfer i with
    | none => true
    | some x => x.ended
        || (x.isIn && h.staging.isEmpty && (decide (4096 ≤ h.moved) || x.items.all (fun i => i.data.isEmpty)))
        || (!x.isIn && (decide (4096 ≤ h.moved) || !s.outMoves x))

/-- The transfer a free channel takes: after a used-up turn the next in the crew's order, else the first (R339, log 64). -/
def nextServed (last : Nat) (l : List (Nat × Xfer)) : Option (Nat × Xfer) :=
  match oldest (l.filter (fun x => decide (last < x.2.seq))) with
  | some x => if last = 0 then oldest l else some x
  | none => oldest l

/-- Where byte `o` of a transfer lies in host memory and how many bytes follow it there (R310, R339). -/
def hostSpan : List (Addr × Nat) → Nat → Addr × Nat
  | [], _ => (0, 0)
  | (a, n) :: t, o => if o < n then (a + BitVec.ofNat 64 o, n - o) else hostSpan t (o - n)

/-- The channel's own walk of the chain reads the next link where the next byte lies beyond the segments it knows (R311,
R338). -/
def walkOn (i : Nat) (s : State) : State :=
  match s.xfer i with
  | none => s
  | some x => match x.channel with
    | none => s
    | some c =>
      let at_ := if x.isIn then x.written else x.asked
      if x.walkEnd || x.walking || x.ended || decide (0 < (hostSpan x.links at_).2) || decide (x.length ≤ at_) then s
      else askRead 32 ⟨x.crew, x.linkAddr, 16, .walk c i⟩ (s.setXfer i { x with walking := true })

/-- A link of the channel's walk arrives (R310, R338): a failed read fails the transfer (R323); a chain that no longer is
what the fetcher read is malformed (R48). -/
def walkArrived (i : Nat) (data : Option (List Byte)) (s : State) : State :=
  match s.xfer i with
  | none => s
  | some x =>
    match data with
    | none => failXfer i stHostMemErr s
    | some b =>
      let l := parseLink b
      let x := { x with walking := false, walkEnd := l.last, linkAddr := l.next x.linkAddr,
                        links := if l.jump then x.links else x.links ++ [(l.addr, l.len)] }
      if !l.wf || (l.last && decide ((x.links.map (·.2)).sum ≠ x.length)) then malformedXfer i (s.setXfer i x)
      else walkOn i (s.setXfer i x)

/-- `WORK_RING_CHANNEL_TAKE` (R339). -/
def channelTake (c : Nat) (s : State) : State :=
  if !s.isWork c || !s.serveOver c || !s.responds .dma then s
  else
    let s := releaseChannel c s
    let s := tryQueues (fun x => x.crew == s.chOwner c) s
    match nextServed (s.ch c).last (s.xfers.filter (fun x => s.wantsChannel (s.chOwner c) x.2)) with
    | none => s
    | some (i, _) => walkOn i ((s.updXfer i (fun x => { x with channel := some c })).updCh c
        (fun h => { h with serve := some i, moved := 0, staging := [], inFlight := [] }))

/-- Bytes of a channel's staging buffer taken or spoken for. -/
def Ch.stagedBytes (h : Ch) : Nat := h.staging.length + (h.inFlight.map (fun r => r.2.1)).sum

/-- Move read data that have arrived in order into the staging buffer. -/
def drainArrived : List (Nat × Nat × Option (List Byte)) → List Byte → List (Nat × Nat × Option (List Byte)) × List Byte
  | (t, n, none) :: r, b => ((t, n, none) :: r, b)
  | (_, _, some d) :: r, b => drainArrived r (b ++ d)
  | [], b => ([], b)

/-- The next read of a served OUT transfer within its turn (R335, R336, R339): address and length, 0 when none may be
issued. -/
def State.nextRead (s : State) (c : Nat) (x : Xfer) : Addr × Nat :=
  let sp := hostSpan x.links x.asked
  let staged := (s.ch c).stagedBytes
  let turn := 4096 - ((s.ch c).moved + staged)
  let n := min (min (min (min 512 s.pci.maxRead) (4096 - sp.1.toNat % 4096)) (min sp.2 (x.length - x.asked))) turn
  if n ≤ 1024 - staged then (sp.1, n) else (sp.1, 0)

/-- Issue the next payload read of a channel (arbiter 2). -/
def chRead (c i : Nat) (x : Xfer) (s : State) : State :=
  let (a, n) := s.nextRead c x
  if n = 0 ∨ !(s.crew x.crew).bme ∨ !s.pci.tagOk (.payload c i) then s
  else match Keyed.lowestFree s.pci.tags 64 0 with
  | none => s
  | some t => walkOn i ((sendRead ⟨x.crew, a, n, .payload c i⟩ (s.setXfer i { x with asked := x.asked + n })).updCh c
      (fun h => { h with inFlight := h.inFlight ++ [(t, n, none)] }))

/-- The items at the head of a list whose last byte has been written to host memory, and the bytes released (R374). -/
def writtenItems (written : Nat) : Nat → List Item → Nat × List Item
  | released, it :: rest =>
    if it.data.isEmpty && decide (released + it.len ≤ written) then
      let r := writtenItems written (released + it.len) rest
      (r.1, it :: r.2)
    else (released, [])
  | released, [] => (released, [])

/-- A transfer's queue holds these items now: its pointers follow their cells (R371, R372). -/
def setItems (i : Nat) (items : List Item) (s : State) : State :=
  let l := items.flatMap (·.cells)
  linkCells l (s.updXfer i (fun x => { x with items := items, ptrs := Ptrs.chain l }))

/-- Items leave a transfer's queue and their cells are released; a mismatch of pointers stops the queue instead (R372,
R374). -/
def releaseItems (i : Nat) (gone : List Nat) (rest : List Item) (s : State) : State :=
  match s.xfer i with
  | none => s
  | some x =>
    if s.headOk x.ptrs gone then setItems i rest (releaseCells gone s)
    else s.updXfer i (fun x => { x with items := rest, ptrs := { x.ptrs with broken := true } })

/-- An item is committed to a transfer's queue (R371); a mismatch of pointers stops the queue instead (R372). -/
def commitTo (i : Nat) (it : Item) (s : State) : State :=
  match s.xfer i with
  | none => s
  | some x =>
    if x.ptrs.tailOk && !x.ptrs.broken then setItems i (x.items ++ [it]) (fillCells it s)
    else s.updXfer i (fun x => { x with ptrs := { x.ptrs with broken := true } })

/-- The next write of a served IN transfer (R335, R336): address and length, 0 when none may be issued: a whole request, or
what is left of the data or of the turn. -/
def State.nextWrite (s : State) (c : Nat) (x : Xfer) : Addr × Nat :=
  let h := s.ch c
  let sp := hostSpan x.links x.written
  let n := min (min s.pci.maxPayload (4096 - sp.1.toNat % 4096)) sp.2
  let rest := x.items.all (fun i => i.data.isEmpty) || decide (4096 ≤ h.moved)
  (sp.1, if n ≤ h.staging.length then n else if rest then h.staging.length else 0)

/-- Issue the next data write of a channel (arbiter 2). -/
def chWrite (c i : Nat) (x : Xfer) (s : State) : State :=
  let (a, n) := s.nextWrite c x
  if n = 0 ∨ !(s.crew x.crew).bme then s
  else
    let s := emit (.hostWrite x.crew a ((s.ch c).staging.take n)) s
    let s := s.updCh c (fun h => { h with staging := h.staging.drop n })
    let w := x.written + n
    let r := writtenItems w x.released x.items
    let s := s.setXfer i { x with written := w, released := r.1 }
    let s := if r.2.isEmpty then s
      else releaseItems i (r.2.flatMap (·.cells)) (x.items.drop r.2.length) s
    let s := walkOn i s
    match x.fin with
    | some f => if w = x.got ∧ !(s.xfer i).any (·.ptrs.broken) then endXfer i f s else s
    | none => s

/-- Bytes of the next beat into an OUT queue. -/
def State.beatBytes (s : State) (c : Nat) (x : Xfer) : Nat :=
  min 32 (min (s.ch c).staging.length (s.nextPkt x - x.partialItem.length))

/-- One 32-byte beat into an OUT queue (R335, R371, R373). -/
def beatOut (c i : Nat) (x : Xfer) (s : State) : State :=
  let st := (s.ch c).staging
  let want := s.nextPkt x
  let n := s.beatBytes c x
  if n = 0 ∨ !s.outMoves x then s
  else
    let b := x.partialItem ++ st.take n
    let s := s.updCh c (fun h => { h with staging := h.staging.drop n, moved := h.moved + n })
    let (new, s) := takeCells x.crew x.tagOf (cellsFor b.length - x.partCells.length) s
    let cells := x.partCells ++ new
    if b.length = want then
      commitTo i { data := b, te := x.got + want == x.length, cells := cells, len := want }
        (s.setXfer i { x with partialItem := [], partCells := [], credits := 0, got := x.got + want })
    else s.setXfer i { x with partialItem := b, partCells := cells, credits := cellsFor want - cells.length }

/-- Take up to `n` bytes of the first item that has any. -/
def takeBeat (n : Nat) : List Item → List Byte × List Item
  | [] => ([], [])
  | it :: t =>
    if it.data.isEmpty then let r := takeBeat n t; (r.1, it :: r.2)
    else (it.data.take n, { it with data := it.data.drop n } :: t)

/-- A work-ring channel can move a beat: data or room for it in its staging buffer, within its turn, and the data path's
requester of the cell memory is not masked (R335, R339, R394, R401). -/
def State.beatCan (s : State) (c : Nat) : Bool :=
  match (s.ch c).serve.bind s.xfer with
  | none => false
  | some x => !s.masked 0 8 && !x.ended && decide ((s.ch c).moved < 4096)
      && (if x.isIn then x.inMoves && decide ((s.ch c).stagedBytes + 32 ≤ 1024)
          else decide (0 < s.beatBytes c x) && s.outMoves x)
/-- A work-ring channel can issue a request (R335, R336, R394, R545). -/
def State.requestCan (s : State) (c : Nat) : Bool :=
  match (s.ch c).serve with
  | none => false
  | some i => match s.xfer i with
    | none => false
    | some x => !x.ended && (s.crew x.crew).bme
        && (if x.isIn then decide (0 < (s.nextWrite c x).2)
            else decide (x.asked < x.length) && decide (0 < (s.nextRead c x).2) && s.pci.tagOk (.payload c i))

/-- One beat of a channel (arbiter 1). -/
def chBeat (c : Nat) (s : State) : State :=
  match (s.ch c).serve with
  | none => s
  | some i => match s.xfer i with
    | none => s
    | some x =>
      if !s.beatCan c then s
      else if x.isIn then
        let (b, items) := takeBeat (min 32 (4096 - (s.ch c).moved)) x.items
        (s.setXfer i { x with items := items }).updCh c
          (fun h => { h with staging := h.staging ++ b, moved := h.moved + b.length })
      else beatOut c i x s

/-! What waits at the host-request arbiter (Table 12.3). -/

/-- The oldest waiting request of requester `i` whose function has its Bus Master Enable set (R545). -/
def State.nextHost (s : State) (i : Nat) : Option HostReq :=
  s.pci.queue.find? (fun q => q.req == i && (s.crew q.fn).bme)
/-- A waiting request may be issued: a read needs a tag (R336). -/
def State.hostOk (s : State) (q : HostReq) : Bool := match q.body with | .read r => s.pci.tagOk r.use | _ => true
/-- Some request waits for nothing but a tag (Table 10.9). -/
def State.tagShort (s : State) : Bool :=
  (List.range 35).any (fun i => (s.nextHost i).any (fun q => !s.hostOk q))
    || s.chs.any (fun h => match h.2.serve.bind s.xfer, h.2.serve with
      | some x, some i => !x.isIn && !x.ended && (s.crew x.crew).bme && decide (0 < (s.nextRead h.1 x).2)
          && !s.pci.tagOk (.payload h.1 i)
      | _, _ => false)

/-- One host request of a channel (arbiter 2). -/
def chRequest (c : Nat) (s : State) : State :=
  match (s.ch c).serve with
  | none => s
  | some i => match s.xfer i with
    | none => s
    | some x => if x.isIn then chWrite c i x s else if x.asked < x.length then chRead c i x s else s

/-- A payload read ends (R323, R324, R336, R341). -/
def payloadArrived (t c i : Nat) (data : Option (List Byte)) (s : State) : State :=
  match data with
  | none => failXfer i stHostMemErr s
  | some b =>
    s.updCh c (fun h =>
      let r := drainArrived (h.inFlight.map (fun e => if e.1 = t ∧ e.2.2.isNone then (t, b.length, some b) else e)) h.staging
      { h with inFlight := r.1, staging := r.2 })

/-! Meanings. -/

/-- `DCH_ENABLE` (R342). -/
def execDchEnable (acc : Acc) (crew : Fin 64) (ch : Fin 32) (s : State) : Host.Outcome State Fault Refusal :=
  finish (chEnable acc crew ch s)
/-- `DCH_STOP` (R357). -/
def execDchStop (acc : Acc) (crew : Fin 64) (ch : Fin 32) (s : State) : Host.Outcome State Fault Refusal :=
  finish (chStop acc crew ch s)
/-- `DCH_RESTART` (R354). -/
def execDchRestart (acc : Acc) (crew : Fin 64) (ch : Fin 32) (s : State) : Host.Outcome State Fault Refusal :=
  finish (chRestart acc crew ch s)
/-- `DCH_PI_WRITE` (R358). -/
def execDchPiWrite (acc : Acc) (crew : Fin 64) (ch : Fin 32) (value : Word) (s : State) :
    Host.Outcome State Fault Refusal :=
  finish (chPi acc crew ch value s)
/-- `DCH_CQ_HEAD_WRITE` (R350). -/
def execDchCqHeadWrite (acc : Acc) (crew : Fin 64) (ch : Fin 32) (value : Word) (s : State) :
    Host.Outcome State Fault Refusal :=
  finish (chCqHead acc crew ch value s)
/-- `DMA_BIND` (R344). -/
def execDmaBind (crew : Fin 64) (ctx : Fin 16384) (ch : Fin 32) (s : State) : Host.Outcome State Fault Refusal :=
  finish (bindOp crew ctx ch false s)
/-- `DMA_UNBIND` (R344). -/
def execDmaUnbind (crew : Fin 64) (ctx : Fin 16384) (ch : Fin 32) (s : State) : Host.Outcome State Fault Refusal :=
  finish (bindOp crew ctx ch true s)
/-- `CAPTURE` (R345). -/
def execDmaCapture (acc : EpmAccess) (s : State) : Host.Outcome State Fault Refusal := finish (capture acc.ch acc.ecc s)
/-- `READ` (R346). -/
def execDmaRead (acc : EpmAccess) (s : State) : Host.Outcome State Fault Refusal := finish (readSample acc.ch acc.ecc s)
/-- `STAGE` (R347). -/
def execDmaStage (ch : Fin 32) (s : State) : Host.Outcome State Fault Refusal := finish (stage ch s)
/-- `STREAM_RECORD_WRITE` (R350). -/
def execStreamRecordWrite (ch : Fin 32) (s : State) : Host.Outcome State Fault Refusal := finish (streamRecord ch s)
/-- `WORK_RING_CHANNEL_TAKE` (R339). -/
def execWorkRingChannelTake (ch : Fin 32) (s : State) : Host.Outcome State Fault Refusal := finish (channelTake ch s)

end Sys2Proof.Machine
end

