-- ==== Sys2Proof/Machine/Contexts.lean ====
section
/-! DEFINITION. Endpoint contexts: reservations, grants and frees (R277 to R281, R362, R369), and the bounds
of the pools (R77, R273). -/

namespace Sys2Proof.Machine

/-- A number below `n` that is not in use, which one being open (log 1); none where all are. -/
def freeIndex (used : Nat → Bool) (n : Nat) (s : State) : Option Nat × State :=
  let (v, s) := freeValue s
  let l := (List.range n).filter (fun i => !used i)
  (l[v % l.length]?, s)

/-- Contexts owner `k` holds on trunk `n`. -/
def State.ctxCount (s : State) (n k : Nat) : Nat :=
  (s.ctxs.filter (fun c => c.2.used && c.2.trunk == n && c.2.owner == k)).length
/-- Contexts reserved to owner `k` on trunk `n`. -/
def State.ctxResv (s : State) (n k : Nat) : Nat :=
  match s.img.applied with
  | none => 0
  | some im => if k = 0 then (im.trunk n).mgrEpCtx else ((im.sec k).map (fun c => c.epCtx.getD n 0)).getD 0
/-- A periodic endpoint (Table 5.11). -/
def periodic (kind : Nat) : Bool := kind == 1 || kind == 2
/-- Owner `k`'s buffer size (R362). -/
def State.bufSize (s : State) (k : Nat) : Nat := if k = 0 then 64 else ((s.sec k).map (fun c => 2 ^ c.epmBufLog2)).getD 0
/-- Buffers owner `k`'s region on trunk `n` holds (R362). -/
def State.bufRoom (s : State) (n k : Nat) : Nat :=
  let kib := match s.img.applied with
    | none => 0
    | some im => if k = 0 then (im.trunk n).mgrEpmKib else ((im.sec k).map (fun c => c.epmKib.getD n 0)).getD 0
  kib * 1024 / s.bufSize k
/-- Buffers owner `k` holds on trunk `n`. -/
def State.bufCount (s : State) (n k : Nat) : Nat :=
  (s.ctxs.filter (fun c => c.2.used && c.2.trunk == n && c.2.owner == k && periodic c.2.kind)).length

/-- Why a context cannot be had from a reservation (R278, R279). -/
def State.allocReason (s : State) (n k kind max : Nat) : Nat :=
  if s.ctxResv n k ≤ s.ctxCount n k then cwQuota
  else if periodic kind && decide (s.bufSize k < max) then cwEpmSmall
  else if periodic kind && decide (s.bufRoom n k ≤ s.bufCount n k) then cwQuota
  else cwOk

/-- Bind a context to endpoint `ep` of the node of entry `i`, with the start values of R172 (R278). -/
def allocCtx (i ep k : Nat) (s : State) : Nat × State :=
  match s.entry i with
  | none => (cwNoEndpoint, s)
  | some e =>
    let r := s.allocReason e.trunk k (epKind e.epmap ep) (epMax e.epmap ep)
    if r ≠ cwOk then (r, s)
    else match freeIndex (fun c => (s.ctx c).used) 16384 s with
    | (none, s) => (cwQuota, s)
    | (some c, s) =>
      let x : Ctx := { used := true, trunk := e.trunk, addr := e.addr, ep := ep, entry := i, owner := k,
                       kind := epKind e.epmap ep, maxPacket := epMax e.epmap ep, bcastOk := epBcast e.epmap ep,
                       epm := { size := if periodic (epKind e.epmap ep) then s.bufSize k else 0 } }
      (cwOk, (s.setCtx c x).setEntry i { e with owner := k })

/-- The checks of Grant endpoint on the node at address `a` (R278, R277); one endpoint has one context
(log 16). -/
def State.grantCheck (s : State) (n a ep k : Nat) : Nat :=
  match s.entryOf n a with
  | none => cwNoEndpoint
  | some (_, e) =>
    if e.isHub || s.ctxs.any (fun c => c.2.used && c.2.trunk == n && c.2.addr == a && c.2.owner != k) then cwOwned
    else if !e.attached || epKind e.epmap ep == 0 then cwNoEndpoint
    else if (s.ctxOf n a ep).isSome then cwOwned
    else cwOk

/-- Grant endpoint `ep` of address `a` on trunk `n` to owner `k` (R278, R279). -/
def grantCtx (n a ep k : Nat) (s : State) : Nat × State :=
  let r := s.grantCheck n a ep k
  if r ≠ cwOk then (r, s)
  else match s.entryOf n a with
  | none => (cwNoEndpoint, s)
  | some (i, _) =>
    match allocCtx i ep k s with
    | (r, s) =>
      if r ≠ cwOk then (r, s)
      else (cwOk, raise k .epGranted n ((s.ctxOf n a ep).getD 0) s)

/-- Every endpoint of a seeded node's map is granted to the entry's owner at its first attachment (R281). -/
def grantSeeded (i : Nat) (s : State) : State :=
  match s.entry i with
  | none => s
  | some e =>
    (List.range 8).foldl (fun s ep =>
      if epKind e.epmap ep = 0 then s
      else
        let r := if e.owner = 0 ∨ (s.crew e.owner).st = .running then grantCtx e.trunk e.addr ep e.owner s else (cwState, s)
        if r.1 = cwOk then r.2
        else raise 0 .crewGrantFailed e.trunk (e.addr + ep * 512 + r.1 * 65536 + e.owner * 0x1000000) r.2) s

/-- A context ends (R280): a waiting `STAGE` on it completes `ABORTED` (Table 11.8); it is freed, the node's
owner reads 0 with its last context, and `EP_REVOKED` goes to the former owner. -/
def revokeCtx (c : Nat) (s : State) : State :=
  let x := s.ctx c
  if !x.used then s
  else raise x.owner .epRevoked x.trunk c (ownerIfLast x.trunk x.addr (freeCtx c s))

/-- Stream channels whose `STAGE` waits for the buffer of context `c` complete it `ABORTED` (Table 11.8). -/
def abortStages (c : Nat) (s : State) : State :=
  s.chs.foldl (fun s h =>
    if h.2.dirOut && h.2.staged.isSome && !h.2.back && h.2.due.isNone && descCtx (h.2.desc.getD []) == c then
      chComplete h.1 { ctx := c, status := stAborted, frame := s.frame % 65536, irq := descIrq (h.2.desc.getD []) } s
    else s) s

/-! Receive ports closing (R384, R385). -/

/-- Empty a port's queue: items dropped and counted, cells zeroed and released, a waiting pop answered. -/
def flushPort (k p : Nat) (s : State) : State :=
  let x := s.rxp k p
  let s := releaseTag (.port k p) s
  let s := s.updRxp k p (fun x => { x with items := [], ptrs := {}, word := 0, above := false, waitPops := 0,
                                           dropped := satAdd 0xFFFF x.dropped x.items.length })
  (List.range x.waitPops).foldl (fun s _ => emit (.popReply k p 0) s) s

/-- A CLOSING port is CLOSED: it is flushed, its transfer context and queue go back (R385). -/
def closePortNow (k p : Nat) (s : State) : State :=
  let x := s.rxp k p
  match x.xfer.bind (fun i => (s.xfer i).map (fun t => (i, t))) with
  | none => s
  | some (i, t) =>
    let s := flushPort k p (orphanTxns i t.trunk s)
    let s := { s with xfers := Keyed.erase i s.xfers }
    let s := match t.ctx with | some c => s.updCtx c (fun e => { e with port := none }) | none => s
    raise k .rxpClosed 255 (pairDetail p 0) (s.updRxp k p (fun x => { x with state := .closed, xfer := none }))

/-- A CLOSING port whose token has ended is CLOSED (R385). -/
def closePortDone (k p : Nat) (s : State) : State :=
  let x := s.rxp k p
  let held := match x.xfer with
    | some i => match s.xfer i with | some t => s.inSlot i t.trunk | none => true
    | none => true
  if x.state ≠ .closing || held then s else closePortNow k p s

/-- Close an open port (R385). -/
def closePort (k p : Nat) (s : State) : State :=
  match (s.rxp k p).state with
  | .open => closePortDone k p (s.updRxp k p (fun x => { x with state := .closing }))
  | .stalled => closePortDone k p (s.updRxp k p (fun x => { x with state := .closing }))
  | _ => s

/-- Begin a revoke (R280): no new submissions; waiting transfers complete `ABORTED`; the port closes; the
almanac entry goes at the next boundary. -/
def beginRevoke (c : Nat) (s : State) : State :=
  let s := s.updCtx c (fun x => { x with revoking := true, alm := { x.alm with removing := true } })
  let s := abortStages c (abortWhere (fun _ x => x.ctx == some c && (match x.origin with | .port _ _ => false | _ => true))
    stAborted s)
  match (s.ctx c).port with
  | some p => closePort (s.ctx c).owner p s
  | none => s

/-- A revoke may end: its boundary has passed, no transaction, transfer or port holds the context. -/
def State.revokeReady (s : State) (c : Nat) : Bool :=
  let x := s.ctx c
  !x.alm.removing && x.port.isNone && !(s.trk x.trunk).slots.any (fun t => t.ctx == some c)
    && s.xfers.all (fun y => y.2.ended || y.2.ctx != some c)

/-! Unreserved remainders (R77, R273). -/

/-- The remainder of trunk `n`'s transfer contexts, without crew `k`'s extra grant. -/
def State.tcFree (s : State) (n k : Nat) : Int :=
  match s.img.applied with
  | none => 0
  | some im => (im.trunk n).tc - (im.trunk n).mgrTc - (im.sumSec (fun c => c.tc.getD n 0) : Nat)
      - ((s.crews.map (fun c => if c.1 = k then 0 else Tab.get 0 c.2.extraTc n)).sum : Nat)
/-- The remainder of the cells, without crew `k`'s extra grant. -/
def State.cellFree (s : State) (k : Nat) : Int :=
  match s.img.applied with
  | none => 0
  | some im => 65536 - im.mgrCells - (im.sumSec (·.cells) : Nat)
      - ((s.crews.map (fun c => if c.1 = k then 0 else c.2.extraCells)).sum : Nat)
/-- The remainder of the cell queues, without crew `k`'s extra grant. -/
def State.queueFree (s : State) (k : Nat) : Int :=
  match s.img.applied with
  | none => 0
  | some im => 2048 - im.mgrQueues - (im.sumSec (·.queues) : Nat)
      - ((s.crews.map (fun c => if c.1 = k then 0 else c.2.extraQueues)).sum : Nat)

end Sys2Proof.Machine
end

