-- ==== Sys2Proof/Machine/Crypto.lean ====
section
/-! DEFINITION. SHA-256 and ECDSA over NIST P-256, as R74 and R82 use them.  The manual takes both from FIPS 180 and
FIPS 186; their constants and steps are written from those standards (log 6). -/

namespace Sys2Proof.Machine

/-! ### SHA-256 -/

/-- Big-endian number of a byte string: digests, coordinates and signature values are octet strings (R72). -/
def beNat (b : List Byte) : Nat := b.foldl (fun n x => n * 256 + x.toNat) 0
/-- A word of 32 bits as four bytes, most significant first. -/
def beWord (w : Word) : List Byte := [w.extractLsb' 24 8, w.extractLsb' 16 8, w.extractLsb' 8 8, w.extractLsb' 0 8]
/-- Rotate right. -/
def ror (w : Word) (n : Nat) : Word := w >>> n ||| w <<< (32 - n)

/-- The round constants: fractions of the cube roots of the first 64 primes. -/
def shaK : List Word :=
  [0x428A2F98, 0x71374491, 0xB5C0FBCF, 0xE9B5DBA5, 0x3956C25B, 0x59F111F1, 0x923F82A4, 0xAB1C5ED5]
  ++ [0xD807AA98, 0x12835B01, 0x243185BE, 0x550C7DC3, 0x72BE5D74, 0x80DEB1FE, 0x9BDC06A7, 0xC19BF174]
  ++ [0xE49B69C1, 0xEFBE4786, 0x0FC19DC6, 0x240CA1CC, 0x2DE92C6F, 0x4A7484AA, 0x5CB0A9DC, 0x76F988DA]
  ++ [0x983E5152, 0xA831C66D, 0xB00327C8, 0xBF597FC7, 0xC6E00BF3, 0xD5A79147, 0x06CA6351, 0x14292967]
  ++ [0x27B70A85, 0x2E1B2138, 0x4D2C6DFC, 0x53380D13, 0x650A7354, 0x766A0ABB, 0x81C2C92E, 0x92722C85]
  ++ [0xA2BFE8A1, 0xA81A664B, 0xC24B8B70, 0xC76C51A3, 0xD192E819, 0xD6990624, 0xF40E3585, 0x106AA070]
  ++ [0x19A4C116, 0x1E376C08, 0x2748774C, 0x34B0BCB5, 0x391C0CB3, 0x4ED8AA4A, 0x5B9CCA4F, 0x682E6FF3]
  ++ [0x748F82EE, 0x78A5636F, 0x84C87814, 0x8CC70208, 0x90BEFFFA, 0xA4506CEB, 0xBEF9A3F7, 0xC67178F2]

/-- The eight chaining words. -/
structure ShaState where
  a : Word
  b : Word
  c : Word
  d : Word
  e : Word
  f : Word
  g : Word
  h : Word
  deriving DecidableEq, Repr

/-- The initial value: fractions of the square roots of the first 8 primes. -/
def shaInit : ShaState :=
  ⟨0x6A09E667, 0xBB67AE85, 0x3C6EF372, 0xA54FF53A, 0x510E527F, 0x9B05688C, 0x1F83D9AB, 0x5BE0CD19⟩

/-- One more word of the message schedule, kept newest first. -/
def shaExtend (w : List Word) : List Word :=
  let s0 := w.getD 14 0
  let s1 := w.getD 1 0
  (((ror s1 17 ^^^ ror s1 19) ^^^ s1 >>> 10) + w.getD 6 0 + ((ror s0 7 ^^^ ror s0 18) ^^^ s0 >>> 3) + w.getD 15 0) :: w
/-- The schedule of a block: its 16 words and 48 more, newest first. -/
def shaSchedule (w : List Word) : Nat → List Word
  | 0 => w
  | n + 1 => shaExtend (shaSchedule w n)
/-- The 16 words of a 64-byte block, newest first. -/
def shaWords (b : List Byte) : List Word :=
  ((List.range 16).map (fun i => BitVec.ofNat 32 (beNat (slice b (4 * i) 4)))).reverse
/-- One round. -/
def shaRound (s : ShaState) (kw : Word × Word) : ShaState :=
  let t1 := s.h + ((ror s.e 6 ^^^ ror s.e 11) ^^^ ror s.e 25) + ((s.e &&& s.f) ^^^ (~~~s.e &&& s.g)) + kw.1 + kw.2
  let t2 := ((ror s.a 2 ^^^ ror s.a 13) ^^^ ror s.a 22) + (((s.a &&& s.b) ^^^ (s.a &&& s.c)) ^^^ (s.b &&& s.c))
  ⟨t1 + t2, s.a, s.b, s.c, s.d + t1, s.e, s.f, s.g⟩
/-- One block. -/
def shaBlock (s : ShaState) (b : List Byte) : ShaState :=
  let t := (shaK.zip (shaSchedule (shaWords b) 48).reverse).foldl shaRound s
  ⟨s.a + t.a, s.b + t.b, s.c + t.c, s.d + t.d, s.e + t.e, s.f + t.f, s.g + t.g, s.h + t.h⟩
/-- `n` blocks of a padded message. -/
def shaBlocks : Nat → List Byte → ShaState → ShaState
  | 0, _, s => s
  | n + 1, b, s => shaBlocks n (b.drop 64) (shaBlock s (b.take 64))
/-- The padding: a one bit, zeros, and the length in bits. -/
def shaPad (len : Nat) : List Byte :=
  0x80#8 :: List.replicate ((119 - len % 64) % 64) 0#8 ++ (leBytes 8 (8 * len)).reverse
/-- SHA-256 of a byte string. -/
@[irreducible] def sha256 (b : List Byte) : List Byte :=
  let m := b ++ shaPad b.length
  let s := shaBlocks (m.length / 64) m shaInit
  [s.a, s.b, s.c, s.d, s.e, s.f, s.g, s.h].flatMap beWord

/-! ### ECDSA over P-256 -/

/-- The field's prime. -/
def p256 : Nat := 0xFFFFFFFF00000001000000000000000000000000FFFFFFFFFFFFFFFFFFFFFFFF
/-- The order of the base point. -/
def p256n : Nat := 0xFFFFFFFF00000000FFFFFFFFFFFFFFFFBCE6FAADA7179E84F3B9CAC2FC632551
/-- The constant b of y² = x³ − 3x + b. -/
def p256b : Nat := 0x5AC635D8AA3A93E7B3EBBD55769886BC651D06B0CC53B0F63BCE3C3E27D2604B
/-- A base to an exponent of `k` bits, modulo m. -/
def powMod (m : Nat) : Nat → Nat → Nat → Nat
  | 0, _, _ => 1
  | k + 1, b, e => powMod m k (b * b % m) (e / 2) * (if e % 2 = 1 then b else 1) % m
/-- Difference modulo p. -/
def fsub (a b : Nat) : Nat := (a + (p256 - b)) % p256

/-- A point x/z², y/z³ of the curve; z is 0 at infinity. -/
structure Point where
  x : Nat
  y : Nat
  z : Nat
  deriving DecidableEq, Repr

/-- The base point. -/
def p256G : Point :=
  ⟨0x6B17D1F2E12C4247F8BCE6E563A440F277037D812DEB33A0F4A13945D898C296,
   0x4FE342E2FE1A7F9B8EE7EB4A7C0F9E162BCE33576B315ECECBB6406837BF51F5, 1⟩
/-- Twice a point. -/
def Point.double (q : Point) : Point :=
  let zz := q.z * q.z % p256
  let yy := q.y * q.y % p256
  let s := 4 * q.x * yy % p256
  let m := 3 * fsub q.x zz * (q.x + zz) % p256
  let x := fsub (m * m % p256) (2 * s % p256)
  ⟨x, fsub (m * fsub s x % p256) (8 * yy * yy % p256), 2 * q.y * q.z % p256⟩
/-- Sum of two points. -/
def Point.add (q r : Point) : Point :=
  if q.z = 0 then r
  else if r.z = 0 then q
  else
    let z1 := q.z * q.z % p256
    let z2 := r.z * r.z % p256
    let u := q.x * z2 % p256
    let h := fsub (r.x * z1 % p256) u
    let v := q.y * z2 * r.z % p256
    let w := fsub (r.y * z1 * q.z % p256) v
    if h = 0 then (if w = 0 then q.double else ⟨1, 1, 0⟩)
    else
      let h2 := h * h % p256
      let h3 := h2 * h % p256
      let uh := u * h2 % p256
      let x := fsub (w * w % p256) ((h3 + 2 * uh) % p256)
      ⟨x, fsub (w * fsub uh x % p256) (v * h3 % p256), h * q.z * r.z % p256⟩
/-- a·G + b·Q for numbers of `k` bits. -/
def mulAdd (q : Point) : Nat → Nat → Nat → Point
  | 0, _, _ => ⟨1, 1, 0⟩
  | k + 1, a, b =>
    let d := (mulAdd q k (a / 2) (b / 2)).double
    let d := if a % 2 = 1 then d.add p256G else d
    if b % 2 = 1 then d.add q else d
/-- ECDSA P-256 verification (R74, R82): public key X then Y, digest of the message, signature r then s. -/
@[irreducible] def ecdsaVerify (key digest sig : List Byte) : Bool :=
  let x := beNat (slice key 0 32)
  let y := beNat (slice key 32 32)
  let r := beNat (slice sig 0 32)
  let s := beNat (slice sig 32 32)
  let w := powMod p256n 256 s (p256n - 2)
  let v := mulAdd ⟨x, y, 1⟩ 256 (beNat digest * w % p256n) (r * w % p256n)
  let i := powMod p256 256 v.z (p256 - 2)
  decide (x < p256) && decide (y < p256) && y * y % p256 == (x * x * x + p256b + (p256 - 3) * x) % p256
    && decide (1 ≤ r) && decide (r < p256n) && decide (1 ≤ s) && decide (s < p256n)
    && v.z != 0 && v.x * (i * i % p256) % p256 % p256n == r

end Sys2Proof.Machine
end

