-- ==== Sys2Proof/Machine/Domains.lean ====
section
/-! DEFINITION. Power domains being switched (R110 to R114), and the end of start-up (R125). -/

namespace Sys2Proof.Machine

/-- Bit `d` of the domain registers. -/
def dbit (d : Nat) : BitVec 24 := 1#24 <<< d
/-- A domain is requested: it waits for power good unless it is on. -/
def reqDomain (d : Nat) (s : State) : State :=
  if s.isOn d then s else { s with pwr := { s.pwr with wait := s.pwr.wait ||| dbit d } }
/-- The line port's registers and counters at their reset values (R113, R192): what other blocks hold of the
trunk is kept. -/
def Trk.portReset (t : Trk) (rate : Nat) : Trk :=
  let clear : Hub → Hub := fun h =>
    { dly := h.dly, dlyValid := h.dlyValid, dlyRej := h.dlyRej, far := h.far, ports := h.ports, holder := h.holder }
  { t with
    state := .stopped, hold := false, lock := false, polInv := false, polTold := false, lfault := false,
    rate := rate, rateEff := rate, crcErr := 0, framingErr := 0, timeouts := 0, resyncs := 0, lpwr := false,
    urxen := false, dtxen := false, stopReq := false, startWait := false, rateReq := false, rateChg := none,
    holdClear := false, tec := 0, tecWarn := false, quarantined := false, quarAt := 0, quarIdle := false,
    clean := 0, walk := none, unreach := 0, pruneAt := none,
    hubs := t.hubs.foldl (fun h p => Tab.upd {} p.1 clear h) t.hubs, slots := [], resv := [], exhausted := [],
    exchanges := [], parkedHop := 0, tailLock := false, tryRate := none }
/-- The tandem block at its reset values (R113, R474): the epoch lies in PD0, `FENCE_IN_N` is a pin. -/
def Tdm.fresh (m : Tdm) : Tdm := { fenceIn := m.fenceIn, epoch := m.epoch, epochValid := m.epochValid }
/-- What the tandem block holds of a trunk, at its reset values (R113, Table 14.9); the parked receiver is the line
port's. -/
def Trk.tdmFresh (t : Trk) : Trk :=
  { t with tailN := 0, tailLearnt := false, tailCand := 0, tailRun := 0, mode := .whole, splitK := 0, splitAt := 0,
           relays := [], relayed := [], farSetup := [], relayWait := 0, relayWaited := false, healClean := 0, healAt := none,
           claimAt := none, claimTries := 0, claiming := false, claimFrame := false, claimConfirm := false }
/-- The image's starting rate of trunk `n` (R192). -/
def State.imgRate (s : State) (n : Nat) : Nat := (s.img.applied.map (fun im => (im.trunk n).rate)).getD 0
/-- A domain is switched off: its block's registers and state go with it (R113). -/
def offDomain (d : Nat) (s : State) : State :=
  let s := { s with pwr := { s.pwr with on := s.pwr.on &&& ~~~ (dbit d), wait := s.pwr.wait &&& ~~~ (dbit d) } }
  if 3 ≤ d ∧ d ≤ 10 then s.updTrk (d - 3) (fun t => t.portReset (s.imgRate (d - 3)))
  else if d = 17 then
    let s := { s with tdm := s.tdm.fresh }
    s.trks.foldl (fun s t => s.updTrk t.1 Trk.tdmFresh) s
  else s
/-- The domains of S3 (Table 4.4). -/
def s3Domains : List Nat := [11, 12, 13, 14, 15, 16, 18, 19]
/-- Every domain of S3 is on. -/
def State.s3On (s : State) : Bool := s3Domains.all s.isOn
/-- No domain of S3 is still awaited: each is on or has failed (R138). -/
def State.s3Settled (s : State) : Bool := s3Domains.all (fun d => !s.pwr.wait.getLsbD d)
/-- A domain is zeroed at power-up (Table 4.2). -/
def domainZeroed (d : Nat) : Bool := [1, 11, 12, 13, 14, 15, 16, 17, 18, 19, 20, 21].contains d
/-- The domains a domain needs (Table 4.2). -/
def domainNeeds (d : Nat) : List Nat :=
  if d = 0 then [] else if d = 1 then [0] else if d = 18 then [1, 2] else [1]

/-- `START_DONE` in the cycle in which the last stage that runs completes (R125). -/
def startCheck (s : State) : State :=
  let rest := match s.img.state with
    | .applied => s.pwr.s5 == .done || (s.pwr.s5 == .idle && s.pwr.s4 == .done)
    | .loader => s.pwr.s4 == .done
    | .loading => false
  if !s.pwr.startDone && s.pwr.s2 == .done && s.pwr.s3 == .done && rest then
    raiseM .startDone 0 { s with pwr := { s.pwr with startDone := true } }
  else s

/-- The controller enters the loader state (R90); S4 ends where it ran. -/
def enterLoader (t : Option Word) (s : State) : State :=
  let s := { s with img := { s.img with state := .loader } }
  let s := raiseM .imgLoaderState 0 s
  match t with
  | some t => startCheck { s with pwr := { s.pwr with s4 := .done, stageT2 := t } }
  | none => s

/-- Configuration requests get a retry answer (R89, R123): until S3 ends; from flash until S5 ends or the
loader state is entered. -/
def State.crs (s : State) : Bool :=
  match s.img.state with
  | .loader => false
  | .applied => s.pwr.s5 == .running
  | .loading => true

/-- Crews the applied image allows: TotalVFs; 0 in the loader state (R90, R105). -/
def State.crewMax (s : State) : Nat := (s.img.applied.map (·.crewMax)).getD 0

/-- A function exists: the manager, and a VF while VF Enable covers it. -/
def State.fnExists (s : State) (fn : Nat) : Bool := fn == 0 || (s.pci.vfEnable && decide (fn ≤ s.pci.numVfs))

/-- Some crew exists (R270). -/
def State.crewExists (s : State) : Bool := s.crews.any (fun c => decide (c.1 ≠ 0) && c.2.st != .absent)
/-- Every trunk is stopped. -/
def State.allStopped (s : State) : Bool := s.trks.all (fun t => t.2.state == .stopped)

end Sys2Proof.Machine
end

