-- ==== Sys2Proof/Machine/Monitor.lean ====
section
/-! DEFINITION. Calibration and the monitors (R126 to R132, R140). -/

namespace Sys2Proof.Machine

/-- Effective range of calibration item `k` (Table 4.6). -/
def calRange (k : Nat) : Int × Int :=
  if k = 0 then (-512, 511) else if k = 1 then (-4096, 4095) else if k ≤ 9 then (-64, 63)
  else if k = 10 then (-100000, 100000) else if k ≤ 18 then (0, 1023) else (-1000, 1000)
/-- The user value is of class F (Table 4.6). -/
def calIsF (k : Nat) : Bool := decide (10 ≤ k)
/-- Index of an item number, where the profile defines it (Table 4.6, R79). -/
def calIndex (item : Nat) : Option Nat :=
  if item = 1 then some 0 else if item = 2 then some 1
  else if 0x10 ≤ item ∧ item ≤ 0x17 then some (item - 0x10 + 2)
  else if item = 0x20 then some 10
  else if 0x30 ≤ item ∧ item ≤ 0x37 then some (item - 0x30 + 11)
  else if item = 0x40 then some 19 else if item = 0x41 then some 20 else none
/-- Item number of index `k`. -/
def calItem (k : Nat) : Nat :=
  if k = 0 then 1 else if k = 1 then 2 else if k ≤ 9 then 0x10 + (k - 2) else if k = 10 then 0x20
  else if k ≤ 18 then 0x30 + (k - 11) else if k = 19 then 0x40 else 0x41
/-- The nearer bound of an item's range (R126). -/
def calLimit (k : Nat) (v : Int) : Int := max (calRange k).1 (min (calRange k).2 v)

/-- The user value in force of item `k` changes: the effective value follows, and a limited one sets its
bit and raises `CAL_SATURATED` (R126, R130). -/
def calForce (k : Nat) (s : State) : State :=
  let u := Tab.get 0 s.cal.user k
  if u = Tab.get 0 s.cal.userForce k then s
  else
    let sum := Tab.get 0 s.shadow.factory k + u
    let e := calLimit k sum
    let c := { s.cal with userForce := Tab.put 0 k u s.cal.userForce, eff := Tab.put 0 k e s.cal.eff }
    if e = sum then { s with cal := c }
    else raiseM .calSaturated (calItem k) { s with cal := { c with sat := c.sat ||| (1#21 <<< k) } }

/-- Write a user value (R129): in force at once for class I, at the next frame boundary for class F. -/
def calWrite (k : Nat) (v : Int) (s : State) : State :=
  let s := { s with cal := { s.cal with user := Tab.put 0 k v s.cal.user } }
  if calIsF k then s else calForce k s

/-- The class-F user values come into force at a frame boundary. -/
def calBoundary (s : State) : State := ((List.range 11).map (· + 10)).foldl (fun s k => calForce k s) s

/-- `CAL_CTRL.clear_user` (R129). -/
def calClear (s : State) : State := (List.range 21).foldl (fun s k => calWrite k 0 s) s

/-- The calibration set-up of R140: user values 0, effective values the limited factory values. -/
def calSetup (s : State) : State :=
  let s := { s with cal := { s.cal with user := [], userForce := [], eff := [] } }
  (List.range 21).foldl (fun s k =>
    let f := Tab.get 0 s.shadow.factory k
    let e := calLimit k f
    let c := { s.cal with eff := Tab.put 0 k e s.cal.eff }
    if e = f then { s with cal := c }
    else raiseM .calSaturated (calItem k) { s with cal := { c with sat := c.sat ||| (1#21 <<< k) } }) s

/-- Calibration state after a reset (R140): thresholds by grade, nothing read yet. -/
def Cal.fresh (gradeX : Bool) : Cal :=
  { warnThr := if gradeX then 1920 else 1600, alarmThr := if gradeX then 2000 else 1680 }

/-- Entries of the user calibration section whose item is not defined. -/
def calIgnored (l : List (Nat × Int)) : List (Nat × Int) := l.filter (fun e => (calIndex e.1).isNone)

/-- User calibration at a full image application (R79, R128): every loaded value is in force at once (R99). -/
def calLoad (l : List (Nat × Int)) (s : State) : State :=
  let t := l.foldl (fun (u : Tab Int) e => match calIndex e.1 with
    | some k => Tab.put 0 k (signed 32 (e.2 % 0x100000000).toNat) u | none => u) []
  let s := { s with cal := { s.cal with user := t } }
  let s := (List.range 21).foldl (fun s k => calForce k s) s
  match calIgnored l with
  | [] => s
  | e :: r => raiseM .imgCalItemIgnored (e.1 + (r.length + 1) * 65536) s

/-- The temperature reading (R127), in 1/16 °C, rounded toward zero. -/
def tempReading (raw gain offset : Int) : Int := (raw * 65536 + raw * gain + offset * 65536).tdiv 65536

/-- Count a run of samples, to at most 4. -/
def runCount (n : Nat) (b : Bool) : Nat := if b then min 4 (n + 1) else 0

/-- One voltage sample: beyond its window, or back within it by 5 mV (R132). -/
def Vmon.sample (v : Vmon) (mv : Int) : Vmon :=
  { v with mv := mv,
           outRun := runCount v.outRun (decide (mv < v.low ∨ (v.high : Int) < mv)),
           inRun := runCount v.inRun (decide ((v.low : Int) + 5 ≤ mv ∧ mv + 5 ≤ v.high)) }

/-- The monitors take a sample (R131). -/
def Cal.sample (c : Cal) (factory : Tab Int) (raw : Int) (mv : List Int) : Cal :=
  let t := tempReading raw (Tab.get 0 c.eff 1) (Tab.get 0 c.eff 0)
  let f := tempReading raw (Tab.get 0 factory 1) (Tab.get 0 factory 0)
  { c with temp := t,
           warnRun := runCount c.warnRun (decide (c.warnThr < t)),
           warnBack := runCount c.warnBack (decide (t ≤ c.warnThr - 32)),
           alarmRun := runCount c.alarmRun (decide (c.alarmThr < t)),
           alarmBack := runCount c.alarmBack (decide (t ≤ c.alarmThr - 32)),
           tripRun := runCount c.tripRun (decide (2240 ≤ f)),
           vmon := c.vmon.zipIdx.map (fun v => v.1.sample (mv.getD v.2 0 + Tab.get 0 c.eff (2 + v.2))) }

/-- `TEMP_CLEAR` on leaving the last temperature condition. -/
def tempLeft (s : State) : State := if s.cal.warn || s.cal.alarm then s else raiseM .tempClear 0 s

/-- A voltage channel's condition changes after 4 consecutive samples. -/
def vmonChange (v : Nat) (s : State) : State :=
  match s.cal.vmon[v]? with
  | none => s
  | some x =>
    let set := fun (b : Bool) => { s with cal := { s.cal with vmon := s.cal.vmon.set v { x with out := b } } }
    if !x.out && x.outRun == 4 then raiseM .vmonOutOfRange v (set true)
    else if x.out && x.inRun == 4 then raiseM .vmonClear v (set false)
    else s

/-- `CAL_USER_WRITE` (R129). -/
def execCalUserWrite (k : Fin 21) (value : Word) (s : State) : Host.Outcome State Fault Refusal :=
  finish (if s.responds .cal then calWrite k value.toInt s else s)

/-- `CLEAR_USER` (R129). -/
def execClearUser (s : State) : Host.Outcome State Fault Refusal :=
  finish (if s.responds .cal then calClear s else s)

/-- `MONITOR_SAMPLE` (R131); a trip's reading below 120 °C is remembered (R133). -/
def execMonitorSample (rawTemp : Int) (rawMv : List Int) (s : State) : Host.Outcome State Fault Refusal :=
  finish (if s.responds .cal then
      let f := tempReading rawTemp (Tab.get 0 s.shadow.factory 1) (Tab.get 0 s.shadow.factory 0)
      { s with cal := s.cal.sample s.shadow.factory rawTemp rawMv,
               pwr := { s.pwr with tripCool := s.pwr.tripped && (s.pwr.tripCool || decide (f < 1920)) } }
    else s)

/-- `MONITOR_CONDITION_CHANGE` (R132). -/
def execMonitorConditionChange (cond : MonCond) (s : State) : Host.Outcome State Fault Refusal :=
  finish (if !s.responds .cal then s
    else match cond with
    | .warn =>
      if !s.cal.warn && s.cal.warnRun == 4 then raiseM .tempWarn 0 { s with cal := { s.cal with warn := true } }
      else if s.cal.warn && s.cal.warnBack == 4 then tempLeft { s with cal := { s.cal with warn := false } }
      else s
    | .alarm =>
      if !s.cal.alarm && s.cal.alarmRun == 4 then raiseM .tempAlarm 0 { s with cal := { s.cal with alarm := true } }
      else if s.cal.alarm && s.cal.alarmBack == 4 then tempLeft { s with cal := { s.cal with alarm := false } }
      else s
    | .volt v => vmonChange v s)

end Sys2Proof.Machine
end

