-- ==== Sys2Proof/Machine/ImageOps.lean ====
section
/-! DEFINITION. Flait images: reading their parts, the checks of Table 3.7, application, and the IMG
operations (chapter 3). -/

namespace Sys2Proof.Machine

/-! Reading the parts (Tables 3.2 to 3.8). -/

/-- The header (Table 3.2). -/
def parseHdr (b : List Byte) : ImgHdr :=
  { fmt := leAt b 4 2, kind := byteAt b 6, bp := byteAt b 7, debug := byteAt b 8 % 2 == 1, rollback := byteAt b 9,
    sections := leAt b 0x0A 2, length := leAt b 0x0C 4, id := leAt b 0x10 8, flashRead := byteAt b 0x18 }
/-- Section table entries (Table 3.3). -/
def parseEnts (b : List Byte) (n : Nat) : List SecEnt :=
  (List.range n).map (fun j => let e := slice b (0x40 + 48 * j) 48
    ⟨leAt e 0 2, leAt e 2 2, leAt e 4 4, leAt e 8 4, slice e 16 32⟩)
/-- Eight 16-bit numbers. -/
def eight16 (b : List Byte) (o : Nat) : List Nat := (List.range 8).map (fun n => leAt b (o + 2 * n) 2)
/-- A crew section (Table 3.6). -/
def parseCrew (b : List Byte) : CrewSec :=
  { tc := eight16 b 0, epCtx := eight16 b 0x10, epmKib := eight16 b 0x20, almUs := eight16 b 0x30,
    cells := leAt b 0x40 4, queues := leAt b 0x44 2, rings := byteAt b 0x46, ringLog2Max := byteAt b 0x47,
    bulkMin := leAt b 0x48 2, bulkWeight := byteAt b 0x4A, epmBufLog2 := byteAt b 0x4B,
    permUrgent := byteAt b 0x4C % 2 == 1, permBcast := byteAt b 0x4C / 2 % 2 == 1 }
/-- A trunk entry (Table 3.5a). -/
def parseTrunk (b : List Byte) (n : Nat) : TrkImg :=
  let o := 0x40 + 16 * n
  ⟨byteAt b o, leAt b (o + 2) 2, leAt b (o + 4) 2, leAt b (o + 6) 2, leAt b (o + 8) 2, leAt b (o + 10) 2,
   leAt b (o + 12) 2⟩
/-- A DMA channel entry (Table 3.5b). -/
def parseChan (b : List Byte) (c : Nat) : ChImg :=
  let u := byteAt b (0xC1 + 4 * c)
  ⟨byteAt b (0xC0 + 4 * c), u % 4, u / 4 % 4⟩
/-- User calibration entries (R79). -/
def parseCal (b : List Byte) : List (Nat × Int) :=
  (List.range (b.length / 8)).map (fun j => (leAt b (8 * j) 2, signed 32 (leAt b (8 * j + 4) 4)))
/-- Roster seed entries (Table 3.8). -/
def parseSeeds (b : List Byte) : List SeedEnt :=
  (List.range (b.length / 64)).map (fun j => let e := slice b (64 * j) 64
    ⟨byteAt e 0, byteAt e 1, byteAt e 2, leAt e 4 2, byteAt e 6, slice e 0x10 32, slice e 0x30 16⟩)

/-! Check 3 (R71, R73). -/

/-- The header is well-formed for kind `kind`, with `avail` bytes to read. -/
def hdrOk (b : List Byte) (kind avail : Nat) : Bool :=
  let h := parseHdr b
  h.fmt == 1 && h.kind == kind && h.bp != 0 && decide (byteAt b 8 < 2) && decide (h.flashRead < 16)
    && allZero (slice b 0x19 39) && decide (1 ≤ h.sections) && decide (h.sections ≤ 66) && h.length % 16 == 0
    && decide (h.length ≤ 0x100000) && decide (h.length ≤ avail) && decide (0x40 + 48 * h.sections + 128 ≤ h.length)

/-- A delta's entry whose body it does not carry (R73). -/
def SecEnt.carried (e : SecEnt) (kind : Nat) : Bool := !(kind == 2 && e.off == 0)
/-- The length fits the section's type. -/
def SecEnt.lenOk (e : SecEnt) : Bool :=
  match e.ty with
  | 1 => e.len == 512 | 2 => e.len == 128 | 3 => e.len % 8 == 0 && decide (e.len ≤ 2048)
  | 4 => e.len % 64 == 0 && decide (e.len ≤ 262144) | _ => false
/-- The entries from `e` on are in order, placed and sized as R71 and R73 ask. -/
def tableFrom (kind bound : Nat) : Nat × Nat → Nat → List SecEnt → Bool
  | _, _, [] => true
  | prev, last, e :: t =>
    (decide (prev.1 < e.ty) || (prev.1 == e.ty && decide (prev.2 < e.inst)))
      && (if e.ty = 2 then decide (1 ≤ e.inst) && decide (e.inst ≤ 63) else e.inst == 0) && e.lenOk
      && (!e.carried kind || (e.off % 16 == 0 && decide (last ≤ e.off) && decide (e.off + e.len ≤ bound)))
      && tableFrom kind bound (e.ty, e.inst) (if e.carried kind then e.off + e.len else last) t
/-- The section table holds (R71, R73): one structure section among its entries. -/
def tableOk (b : List Byte) (h : ImgHdr) : Bool :=
  let es := parseEnts b h.sections
  tableFrom h.kind (h.length - 128) (0, 0) (0x40 + 48 * h.sections) es && es.any (fun e => e.ty == 1)
    && (List.range h.sections).all (fun j => leAt b (0x4C + 48 * j) 4 == 0)

/-! Check 9 (R75 to R80, Table 3.9). -/

/-- A structure section's own fields and zero bytes (R75). -/
def structOk (b : List Byte) : Bool :=
  let te := byteAt b 1
  let crewMax := byteAt b 0
  decide (crewMax ≤ 63) && (byteAt b 2 &&& te == byteAt b 2) && byteAt b 3 == 0 && allZero (slice b 0x0A 54)
    && allZero (slice b 0x140 192)
    && (List.range 8).all (fun n =>
      let e := slice b (0x40 + 16 * n) 16
      if te.testBit n then decide (byteAt e 0 ≤ 2) && byteAt e 1 == 0 && leAt e 14 2 == 0 else allZero e)
    && (List.range 32).all (fun c =>
      let o := byteAt b (0xC0 + 4 * c)
      let u := byteAt b (0xC1 + 4 * c)
      leAt b (0xC2 + 4 * c) 2 == 0 && decide (u < 8) && (if o = 0xFF then u == 0 else decide (o ≤ crewMax)))
/-- A crew section's own fields and zero bytes (R76). -/
def crewOk (b : List Byte) : Bool :=
  let c := parseCrew b
  c.almUs.all (fun a => decide (a ≤ 700)) && decide (1 ≤ c.rings) && decide (c.rings ≤ 8)
    && decide (4 ≤ c.ringLog2Max) && decide (c.ringLog2Max ≤ 16) && decide (c.bulkMin ≤ 1024)
    && decide (1 ≤ c.bulkWeight) && decide (4 ≤ c.epmBufLog2) && decide (c.epmBufLog2 ≤ 10)
    && decide (byteAt b 0x4C < 4) && allZero (slice b 0x4D 51)
/-- No number occurs twice. -/
def noRepeat {α : Type} [DecidableEq α] : List α → Bool
  | [] => true
  | a :: t => !t.contains a && noRepeat t
/-- A user calibration section (R79, Table 3.9). -/
def calOk (b : List Byte) : Bool :=
  noRepeat ((parseCal b).map (·.1)) && (List.range (b.length / 8)).all (fun j => leAt b (8 * j + 2) 2 == 0)
/-- A roster seed section (R80, Tables 3.8, 3.9, 6.5).  The zero bytes and the node_kind of Table 6.5 are tested too (DEDUCED,
log 72). -/
def seedsOk (b : List Byte) (te crewMax : Nat) : Bool :=
  let l := parseSeeds b
  l.all (fun e => decide (e.trunk < 8) && te.testBit e.trunk && decide (1 ≤ e.hub) && decide (e.hub ≤ 64)
      && decide (e.port ≤ 15) && decide (1 ≤ e.addr) && decide (e.addr ≤ 511) && decide (e.owner ≤ crewMax)
      && (byteAt e.identity 4 == 1 || byteAt e.identity 4 == 2) && allZero (slice e.identity 13 3))
    && (List.range l.length).all (fun j => byteAt b (64 * j + 3) == 1 && allZero (slice b (64 * j + 7) 9))
    && noRepeat (l.map (fun e => (e.trunk, e.hub, e.port))) && noRepeat (l.map (fun e => (e.trunk, e.addr)))

/-- The sums of Table 3.9. -/
def Image.sumsOk (im : Image) : Bool :=
  let tr := im.trunks
  let sum : (TrkImg → Nat) → Nat := fun f => (tr.map f).sum
  let odd : Nat → Nat := fun p => ((tr.zipIdx.filter (fun t => t.2 % 2 == p)).map (fun t => t.1.epmKib)).sum
  decide (sum (·.epCtx) ≤ 16384) && decide (sum (·.tc) ≤ 4096) && decide (odd 0 ≤ 768) && decide (odd 1 ≤ 768)
    && (List.range 8).all (fun n =>
      let t := im.trunk n
      decide (t.mgrEpCtx + im.sumSec (fun c => c.epCtx.getD n 0) ≤ t.epCtx)
        && decide (t.mgrTc + im.sumSec (fun c => c.tc.getD n 0) ≤ t.tc)
        && decide (t.mgrEpmKib + im.sumSec (fun c => c.epmKib.getD n 0) ≤ t.epmKib)
        && decide (im.sumSec (fun c => c.almUs.getD n 0) ≤ 700))
    && decide (im.mgrCells + im.sumSec (·.cells) ≤ 65536) && decide (im.mgrQueues + im.sumSec (·.queues) ≤ 2048)
    && decide (im.sumSec (·.bulkMin) ≤ 1024) && im.crews.all (fun c => decide (c.1 ≤ im.crewMax))

/-- Body of an entry. -/
def SecEnt.body (e : SecEnt) (b : List Byte) : List Byte := slice b e.off e.len
/-- The body of the first carried section of a type. -/
def bodyOf (es : List SecEnt) (kind ty : Nat) (b : List Byte) : Option (List Byte) :=
  (es.find? (fun e => e.ty == ty && e.carried kind)).map (·.body b)
/-- An image of its parts; `old` gives what a delta does not carry (R93). -/
def buildImage (b : List Byte) (h : ImgHdr) (es : List SecEnt) (old : Option Image) : Image :=
  let same := fun (e : SecEnt) (im : Image) => im.table.any (fun o => o.ty == e.ty && o.inst == e.inst && o.digest == e.digest)
  let crews := es.filterMap (fun e =>
    if e.ty ≠ 2 then none
    else if e.carried h.kind then some (e.inst, parseCrew (e.body b))
    else old.bind (fun im => if same e im then (im.sec e.inst).map (fun c => (e.inst, c)) else none))
  match bodyOf es h.kind 1 b, old with
  | none, some im => { im with hdr := h, table := es, crews := crews }
  | st, old =>
    let x := st.getD []
    { hdr := h, table := es, crewMax := byteAt x 0, trunkEnable := BitVec.ofNat 8 (byteAt x 1),
      pairFed := BitVec.ofNat 8 (byteAt x 2), mgrCells := leAt x 4 4, mgrQueues := leAt x 8 2,
      trunks := (List.range 8).map (parseTrunk x), chans := (List.range 32).map (parseChan x), crews := crews,
      cal := parseCal ((bodyOf es h.kind 3 b).getD []),
      seeds := match bodyOf es h.kind 4 b, old with
        | some l, _ => parseSeeds l | none, some im => im.seeds | none, none => [] }
/-- Check 9 on the bodies an image carries and the sums it gives. -/
def structureOk (b : List Byte) (h : ImgHdr) (es : List SecEnt) (im : Image) : Bool :=
  es.all (fun e => !e.carried h.kind || (match e.ty with
    | 1 => structOk (e.body b) | 2 => crewOk (e.body b) | 3 => calOk (e.body b)
    | _ => seedsOk (e.body b) im.trunkEnable.toNat im.crewMax)) && im.sumsOk

/-! Check 10 (R93). -/

/-- The crew section a delta is about: the one it carries, or the one it leaves out. -/
def deltaCrew (es : List SecEnt) (app : Image) : Option Nat :=
  match es.filter (fun e => e.carried 2) with
  | [e] => if e.ty = 2 then some e.inst else none
  | [] => match app.table.filter (fun o => !es.any (fun e => e.ty == o.ty && e.inst == o.inst)) with
    | [o] => if o.ty = 2 then some o.inst else none
    | _ => none
  | _ => none
/-- The delta leaves every section but crew section `n` as it is. -/
def deltaOk (h : ImgHdr) (es : List SecEnt) (app : Image) (n : Nat) : Bool :=
  h.bp == app.hdr.bp && h.debug == app.hdr.debug && h.flashRead == app.hdr.flashRead
    && decide (app.hdr.rollback ≤ h.rollback)
    && app.table.all (fun o => (o.ty == 2 && o.inst == n)
        || es.any (fun e => e.ty == o.ty && e.inst == o.inst && e.digest == o.digest && e.len == o.len))
    && es.all (fun e => (e.ty == 2 && e.inst == n) || app.table.any (fun o => o.ty == e.ty && o.inst == e.inst))

/-- What the image verifier finds: a reason code, and with NONE the image and, of a delta, its crew. -/
structure Verdict where
  reason : Nat
  image : Option Image := none
  crew : Option Nat := none
  deriving DecidableEq, Repr

/-- The checks of Table 3.7, in order (R81); `kind` is 1 for a slot or op 1, 2 for op 2. -/
def verifyImage (s : State) (kind avail : Nat) (b : List Byte) : Verdict :=
  let h := parseHdr b
  let es := parseEnts b h.sections
  let sig := slice b (h.length - 128) 128
  match s.shadow.keyHash with
  | none => ⟨imKeyUnprogrammed, none, none⟩
  | some key =>
    if leAt b 0 4 ≠ 0x54414C46 then ⟨imBadMagic, none, none⟩
    else if !(hdrOk b kind avail && tableOk b h) then ⟨imBadFormat, none, none⟩
    else if sha256 (slice sig 0 64) ≠ key then ⟨imKeyHash, none, none⟩
    else if !ecdsaVerify (slice sig 0 64) (sha256 (b.take (0x40 + 48 * h.sections))) (slice sig 64 64) then
      ⟨imSignature, none, none⟩
    else if es.any (fun e => e.carried h.kind && sha256 (e.body b) != e.digest) then ⟨imSectionHash, none, none⟩
    else if h.rollback < s.shadow.rollback ∨ 32 < h.rollback then ⟨imRollback, none, none⟩
    else if s.shadow.bpHighest < h.bp then ⟨imBpUnsupported, none, none⟩
    else
      let old := if kind = 2 then s.img.applied else none
      let im := buildImage b h es old
      if !structureOk b h es im then ⟨imStructure, none, none⟩
      else if kind ≠ 2 then ⟨imNone, some im, none⟩
      else match s.img.applied with
      | none => ⟨imState, none, none⟩
      | some app => match deltaCrew es app with
        | none => ⟨imDelta, none, none⟩
        | some n =>
          if (s.crew n).st ≠ .absent ∨ s.img.run.any (·.crewsAt.contains n) = true then ⟨imState, none, some n⟩
          else if deltaOk h es app n then ⟨imNone, some im, some n⟩
          else ⟨imDelta, none, none⟩

/-- A delta for crew `n` is being checked (R93, Table 3.10). -/
def State.deltaChecks (s : State) (n : Nat) : Bool :=
  match s.img.run, s.img.applied with
  | some r, some app => r.op == 2 && decide (2 ≤ r.part)
      && deltaCrew (parseEnts r.data (parseHdr r.data).sections) app == some n
  | _, _ => false

/-! Application (R92, R94, R99, R105, R111, R128). -/

/-- A roster seed entry is written (R80); while nodes are attached, only where no entry is valid (Table 6.13).  It takes
the place of the entry of its position and of the one with its address (log 60); which index it takes is open. -/
def seedEntry (e : SeedEnt) (s : State) : State :=
  let meets := fun (x : Nat × Entry) =>
    x.2.trunk == e.trunk && ((x.2.hub == e.hub && x.2.port == e.port) || x.2.addr == e.addr)
  if s.ros.entries.any meets && s.ros.entries.any (·.2.attached) then s
  else
    let s := { s with ros := { s.ros with entries := s.ros.entries.filter (fun x => !meets x) } }
    match freeIndex (fun i => (s.entry i).isSome) 4096 s with
  | (none, s) => s
  | (some i, s) => s.setEntry i
      { trunk := e.trunk, hub := e.hub, port := e.port, addr := e.addr, owner := e.owner, configValid := true,
        seeded := true, isHub := byteAt e.identity 4 == 1, identity := e.identity, config := e.config }

/-- The domains an image asks for are requested; the other line ports and an unused tandem link go off. -/
def imageDomains (im : Image) (s : State) : State :=
  let want := fun (d : Nat) => if d = 17 then im.pairFed != 0 else im.trunkEnable.getLsbD (d - 3)
  let s := { s with pwr := { s.pwr with req := (s.pwr.req &&& dbit 23) ||| BitVec.ofNat 24 (im.trunkEnable.toNat * 8)
                                               ||| (if im.pairFed = 0 then 0 else dbit 17) } }
  [3, 4, 5, 6, 7, 8, 9, 10, 17].foldl (fun s d => if want d then reqDomain d s else offDomain d s) s

/-- Every channel stands at its reset values; what was read for it is discarded on arrival. -/
def clearChannels (s : State) : State :=
  let s := s.chs.foldl (fun s c => releaseChannel c.1 s) s
  { dropQueued (fun q => decide (q.req < 32)) (discardReads (fun u => u.channel.isSome) s) with chs := [] }

/-- A full image is applied at one instant: image values, rates, user calibration, domains, roster seed; every
binding of a stream channel ends and every extra grant is 0 (R92, R128, R333, R344). -/
def applyFull (im : Image) (source : Nat) (s : State) : State :=
  let s := clearChannels { s with img := { s.img with applied := some im, state := .applied, source := source } }
  let s := (List.range 8).foldl (fun s n => s.updTrk n (fun t =>
    { t with rate := (im.trunk n).rate, rateEff := (im.trunk n).rate })) s
  let s := s.crews.foldl (fun s c => s.updCrew c.1 (fun c =>
    { c with extraTc := [], extraCells := 0, extraQueues := 0 })) s
  let s := updCtxs (fun _ c => c.used) (fun c => { c with channel := none }) s
  im.seeds.foldl (fun s e => seedEntry e s) (imageDomains im (calLoad im.cal s))

/-- A delta replaces, adds or removes one crew section (R94). -/
def applyDelta (im : Image) (n : Nat) (s : State) : State :=
  raiseM .imgCrewReloaded n { s with img := { s.img with applied := some im } }

/-! IMG operations (R83, R84, R91 to R97, R100 to R103). -/

/-- An operation ends: status, verifier off. -/
def endImg (reason : Nat) (s : State) : State :=
  match s.img.run with
  | none => s
  | some r => offDomain 20 { s with img := { s.img with busy := false, reason := reason, lastOp := r.op, run := none } }
/-- A push fails: `IMG_PUSH_REJECTED`, or `IMG_BP_UNSUPPORTED` in its place (R100). -/
def failPush (reason : Nat) (s : State) : State :=
  match s.img.run with
  | none => s
  | some r =>
    let s := endImg reason s
    if reason = imBpUnsupported then raiseM .imgBpUnsupported (2 + 8 * 256 + (parseHdr r.data).bp * 65536) s
    else raiseM .imgPushRejected (pairDetail r.op reason) s
/-- An operation ends without success under its own rule. -/
def refuseImg (reason : Nat) (s : State) : State :=
  match s.img.run with
  | some r => if r.op = 1 ∨ r.op = 2 then failPush reason s else endImg reason s
  | none => s

/-- A domain of S3 is off, or PD20 failed at start-up, so that no slot was tried (R103), or the trip holds the
verifier off (R133). -/
def State.imgBlocked (s : State) : Bool :=
  !s.s3On || s.pwr.tripped || (s.img.state == .loader && !s.straps.boot && s.img.slotAReason == imNotTried
    && s.img.slotBReason == imNotTried)
/-- The precondition of a full push (R92). -/
def State.pushOk (s : State) : Bool := s.img.state == .loader || (!s.crewExists && s.allStopped)
/-- Why an operation cannot begin. -/
def imgPre (op : Nat) (slotB : Bool) (s : State) : Nat :=
  match op with
  | 1 => if s.imgBlocked then imDomainFault else if !s.pushOk then imState
    else if 0x100000 < s.img.pushLen ∨ s.img.pushLen % 16 ≠ 0 then imBadFormat else imNone
  | 2 => if s.imgBlocked then imDomainFault else if s.img.state ≠ .applied then imState
    else if 0x100000 < s.img.pushLen ∨ s.img.pushLen % 16 ≠ 0 then imBadFormat else imNone
  | 3 => if s.img.kept.isNone || s.straps.boot || s.img.source == (if slotB then 2 else 1) then imState else imNone
  | 4 => if s.img.applied.isNone then imState else imNone
  | _ => if s.img.state ≠ .loader ∨ s.shadow.keyHash.isSome then imState else imNone

/-- The crews that exist. -/
def State.crewsThere (s : State) : List Nat :=
  (s.crews.filter (fun c => decide (c.1 ≠ 0) && c.2.st != .absent)).map (·.1)
/-- `IMG_CTRL` (R96): BUSY beside a running operation; else the operation begins with the verifier's domain. -/
def imgStart (op : Nat) (slotB : Bool) (s : State) : State :=
  if !s.responds .img then s
  else if s.img.run.isSome then { s with img := { s.img with reason := imBusy, lastOp := op } }
  else
    let pre := imgPre op slotB s
    let kept := if op = 1 ∨ op = 2 then none else s.img.kept
    let s := { s with img := { s.img with busy := true, kept := kept, run := some {
      op := op, phase := .powerUp, slotB := slotB, crewsAt := if op = 2 then s.crewsThere else [] } } }
    if pre ≠ imNone then refuseImg pre s
    else if s.pwr.tripped then refuseImg imDomainFault s
    else reqDomain 20 s

/-- Change the running operation. -/
def updRun (f : ImgRun → ImgRun) (s : State) : State :=
  { s with img := { s.img with run := s.img.run.map f } }

/-- Ask for the next bytes of the push buffer, from offset `o` up to `want` (R91, R336). -/
def pushRead (o want : Nat) (use : ReadFor) (s : State) : State :=
  let a := s.img.pushBase + BitVec.ofNat 64 o
  let n := min (min (min 512 s.pci.maxRead) (4096 - a.toNat % 4096)) (want - o)
  askRead 34 ⟨0, a, n, use⟩ s

/-- The signature block: the last 128 bytes of the image (Table 3.1). -/
def sigAt (h : ImgHdr) : Nat := h.length - 128
/-- Where the section bodies may begin: after the section table. -/
def tableEnd (h : ImgHdr) : Nat := 0x40 + 48 * h.sections
/-- Checks 4 and 5: the key hash and the signature over header and table (Table 3.7). -/
def signatureOk (key : Option (List Byte)) (b sig : List Byte) (h : ImgHdr) : Bool :=
  key == some (sha256 (slice sig 0 64)) && ecdsaVerify (slice sig 0 64) (sha256 (b.take (tableEnd h))) (slice sig 64 64)
/-- The bytes of a push as far as they have been read: what lies between them and the signature block reads 0 here. -/
def ImgRun.bytes (r : ImgRun) : List Byte :=
  if r.sig = [] then r.data
  else r.data ++ List.replicate (sigAt (parseHdr r.data) - r.data.length) 0 ++ r.sig

/-- A part of a push is complete: it is accepted, or what failed is left to the checks (R81, Table 3.7: the bodies are
read only after checks 1 to 5; R91). -/
def ImgRun.accept (r : ImgRun) (key : Option (List Byte)) (pushLen : Nat) : ImgRun :=
  let h := parseHdr r.data
  let next := fun (ok : Bool) (r : ImgRun) => if ok then { r with part := r.part + 1 } else { r with phase := .checking }
  match r.part with
  | 0 => if r.data.length < 0x40 then r else next (leAt r.data 0 4 == 0x54414C46 && hdrOk r.data r.op pushLen) r
  | 1 => if r.data.length < tableEnd h then r else next (tableOk r.data h) r
  | 2 => if r.sig.length < 128 then r else next (signatureOk key r.data r.sig h) r
  | _ => r

/-- Go on reading a push: the header, the section table, the signature block, then the bodies with the padding between
them; what is read is left to the checks. -/
def pushNext (s : State) : State :=
  let s := updRun (fun r => if r.phase = .reading then r.accept s.shadow.keyHash s.img.pushLen else r) s
  match s.img.run with
  | none => s
  | some r =>
    let h := parseHdr r.data
    if r.phase ≠ .reading then s
    else match r.part with
    | 0 => pushRead r.data.length 0x40 .push s
    | 1 => pushRead r.data.length (tableEnd h) .push s
    | 2 => pushRead (sigAt h + r.sig.length) h.length .push s
    | _ =>
      if r.data.length < sigAt h then pushRead r.data.length (sigAt h) .push s
      else updRun (fun r => { r with phase := .checking }) s

/-! The flash (R85, R87, R88, R95). -/

/-- Where a slot starts. -/
def slotBase (slotB : Bool) : Nat := if slotB then 0x100000 else 0
/-- Clock of flash_read in MHz. -/
def flashMhz (fr : Nat) : Nat := 25 * (fr % 4 + 1)
/-- Quad read. -/
def flashQuad (fr : Nat) : Bool := fr.testBit 2
/-- 4-byte addressing. -/
def flash4B (fr : Nat) : Bool := fr.testBit 3
/-- Address bytes of a command. -/
def flashAddr (fr : Nat) : Nat := if flash4B fr then 4 else 3
/-- A read of header, table or signature block: command 0x03, 3-byte addressing, 25 MHz. -/
def plainRead (slotB : Bool) (o len : Nat) : Output := .flash (.read 0x03 3 0 25 (slotBase slotB + o) len)
/-- A read in the mode that flash_read names, with 8 dummy clocks. -/
def modeRead (fr : Nat) (slotB : Bool) (o len : Nat) : Output :=
  .flash (.read (match flashQuad fr, flash4B fr with
    | true, false => 0x6B | false, false => 0x0B | true, true => 0x6C | false, true => 0x0C)
    (flashAddr fr) 8 (flashMhz fr) (slotBase slotB + o) len)
/-- An erase of one 64 KiB block, with the wait on the status register that follows it. -/
def eraseBlock (fr : Nat) (slotB : Bool) (n : Nat) (s : State) : State :=
  emit (.flash (.status 0x05 (flashMhz fr)))
    (emit (.flash (.erase (if flash4B fr then 0xDC else 0xD8) (flashAddr fr) (flashMhz fr) (slotBase slotB + 0x10000 * n))) s)
/-- A program of bytes within one 256-byte page, with the wait that follows it. -/
def programAt (fr : Nat) (slotB : Bool) (o : Nat) (b : List Byte) (s : State) : State :=
  emit (.flash (.status 0x05 (flashMhz fr)))
    (emit (.flash (.program (if flash4B fr then 0x12 else 0x02) (flashAddr fr) (flashMhz fr) (slotBase slotB + o) b)) s)
/-- The header of a slot is read, unless the key hash is blank: a slot that fails check 1 is not read at all. -/
def slotHeader (slotB : Bool) (s : State) : State :=
  if s.shadow.keyHash.isNone then s else emit (plainRead slotB 0 0x40) s
/-- The rest of a slot's reads: table and signature block after a good header, bodies after checks 1 to 5 (R87). -/
def slotReads (slotB : Bool) (b : List Byte) (s : State) : State :=
  let h := parseHdr b
  if s.shadow.keyHash.isNone || leAt b 0 4 != 0x54414C46 || !hdrOk b 1 0x100000 then s
  else
    let s := emit (plainRead slotB (sigAt h) 128) (emit (plainRead slotB 0x40 (48 * h.sections)) s)
    if tableOk b h && signatureOk s.shadow.keyHash b (slice b (sigAt h) 128) h then
      emit (modeRead h.flashRead slotB (tableEnd h) (sigAt h - tableEnd h)) s
    else s

/-- The verifier's domain is on: the operation starts its work. -/
def imgPowered (s : State) : State :=
  match s.img.run with
  | none => s
  | some r =>
    if r.phase ≠ .powerUp then s
    else match r.op with
    | 0 => slotHeader r.slotB (updRun (fun r => { r with phase := .checking }) s)
    | 1 | 2 =>
      if s.shadow.keyHash.isNone then updRun (fun r => { r with phase := .checking }) s
      else pushNext (updRun (fun r => { r with phase := .reading }) s)
    | 3 => eraseBlock s.img.keptRead r.slotB 0 (updRun (fun r => { r with phase := .erasing, pos := 0 }) s)
    | 4 =>
      if (s.img.applied.map (·.hdr.rollback)).getD 0 ≤ s.shadow.rollback then endImg imNone s
      else updRun (fun r => { r with phase := .blowing }) s
    | _ => updRun (fun r => { r with phase := .blowing }) s

/-- The verifier's domain failed (R103, R138). -/
def imgFault (s : State) : State :=
  match s.img.run with
  | none => s
  | some r =>
    if r.op = 0 then
      let (t, s) := freeValue { s with img := { s.img with run := none } }
      enterLoader (some (BitVec.ofNat 32 t)) s
    else refuseImg imDomainFault s

/-- Bytes of a push arrive; a failed read ends it with HOST_READ (R102). -/
def pushArrived (data : Option (List Byte)) (s : State) : State :=
  match s.img.run, data with
  | some r, some b =>
    if r.phase = .reading ∧ (r.op = 1 ∨ r.op = 2) then
      pushNext (updRun (fun r => if r.part = 2 then { r with sig := r.sig ++ b } else { r with data := r.data ++ b }) s)
    else s
  | some r, none => if r.op = 1 ∨ r.op = 2 then failPush imHostRead s else s
  | none, _ => s

/-- A store ends in failure: the slot's first block is erased first (R95). -/
def storeFail (reason : Nat) (s : State) : State :=
  match s.img.run with
  | none => s
  | some r => eraseBlock s.img.keptRead r.slotB 0 (updRun (fun r => { r with phase := .eraseBad, result := reason }) s)

/-- Program the page at `pos`, without the first 64 bytes of the image, which come last. -/
def programPage (s : State) : State :=
  match s.img.run with
  | none => s
  | some r =>
    let o := if r.pos = 0 then 0x40 else r.pos
    programAt s.img.keptRead r.slotB o (slice r.data o (r.pos + 0x100 - o)) s

/-- Bytes of the push buffer arrive for a store; the pages are then programmed (R95). -/
def storeArrived (data : Option (List Byte)) (s : State) : State :=
  match s.img.run, data with
  | some r, some b =>
    if r.phase = .reading ∧ r.op = 3 then
      let s := updRun (fun r => { r with data := r.data ++ b }) s
      if r.data.length + b.length < s.img.keptLen then pushRead (r.data.length + b.length) s.img.keptLen .store s
      else programPage (updRun (fun r => { r with phase := .programming, pos := 0 }) s)
    else s
  | some r, none => if r.op = 3 then storeFail imHostRead s else s
  | none, _ => s

/-- A store moves to its next step, each time an erase or a program has ended (R95). -/
def storeStep (readBack : List Byte) (s : State) : State :=
  match s.img.run with
  | none => s
  | some r =>
    if r.op ≠ 3 then s
    else match r.phase with
    | .erasing =>
      if r.pos < 15 then eraseBlock s.img.keptRead r.slotB (r.pos + 1) (updRun (fun r => { r with pos := r.pos + 1 }) s)
      else pushRead 0 s.img.keptLen .store (updRun (fun r => { r with phase := .reading }) s)
    | .programming =>
      if r.pos + 0x100 < s.img.keptLen then programPage (updRun (fun r => { r with pos := r.pos + 0x100 }) s)
      else if some (sha256 r.data) = s.img.kept then
        programAt s.img.keptRead r.slotB 0 (r.data.take 0x40) (updRun (fun r => { r with phase := .header }) s)
      else storeFail imSectionHash s
    | .header =>
      let s := emit (modeRead s.img.keptRead r.slotB 0 s.img.keptLen) s
      if readBack.take r.data.length = r.data then
        raiseM .imgStoreDone (pairDetail (bit r.slotB) imNone) (endImg imNone s)
      else storeFail imFlashVerify s
    | .eraseBad => raiseM .imgStoreFailed (pairDetail (bit r.slotB) r.result) (endImg r.result s)
    | _ => s

/-- The outcome of a flash slot, after the reads its checks took (R86, R87, R100). -/
def slotChecked (flash : List Byte) (tUs : Word) (r : ImgRun) (s : State) : State :=
  let v := verifyImage s 1 0x100000 flash
  let s := slotReads r.slotB flash s
  let s := { s with img := { s.img with
    slotAReason := if r.slotB then s.img.slotAReason else v.reason,
    slotBReason := if r.slotB then v.reason else s.img.slotBReason } }
  match v.image with
  | some im =>
    let s := offDomain 20 { s with img := { s.img with run := none } }
    applyFull im (if r.slotB then 2 else 1)
      { s with pwr := { s.pwr with s4 := .done, stageT2 := tUs, s5 := .running } }
  | none =>
    let s := if v.reason = imBpUnsupported then
        raiseM .imgBpUnsupported (bit r.slotB + 8 * 256 + (parseHdr flash).bp * 65536) s
      else raiseM .imgSlotRejected (pairDetail (bit r.slotB) v.reason) s
    if r.triedOther then enterLoader (some tUs) (offDomain 20 { s with img := { s.img with run := none } })
    else slotHeader (!r.slotB) (updRun (fun r => { r with slotB := !r.slotB, triedOther := true }) s)

/-- The outcome of a push (R92 to R94, R99, R100): its preconditions are tested again. -/
def pushChecked (r : ImgRun) (s : State) : State :=
  let b := r.bytes
  let v := verifyImage s r.op s.img.pushLen b
  match v.image with
  | none => failPush v.reason s
  | some im =>
    let kept := { s with img := { s.img with
      kept := some (sha256 b), keptLen := b.length, keptRead := im.hdr.flashRead } }
    if r.op = 1 then
      if !s.pushOk then failPush imState kept
      else raiseM .imgApplied 0 (applyFull im 3 (endImg imNone kept))
    else match v.crew with
      | some n => applyDelta im n (endImg imNone s)
      | none => failPush imDelta s

/-- `PUSH_FULL` (R91). -/
def execPushFull (s : State) : Host.Outcome State Fault Refusal := finish (imgStart 1 false s)
/-- `PUSH_DELTA` (R93). -/
def execPushDelta (s : State) : Host.Outcome State Fault Refusal := finish (imgStart 2 false s)
/-- `STORE` (R95). -/
def execImgStore (slotB : Bool) (s : State) : Host.Outcome State Fault Refusal := finish (imgStart 3 slotB s)
/-- `COMMIT_ROLLBACK` (R83). -/
def execCommitRollback (s : State) : Host.Outcome State Fault Refusal := finish (imgStart 4 false s)
/-- `PROGRAM_KEY_HASH` (R84). -/
def execProgramKeyHash (s : State) : Host.Outcome State Fault Refusal := finish (imgStart 5 false s)

/-- `IMAGE_VERIFY_DONE` (R81): `flash` is what the slot read, for a start from flash. -/
def execImageVerifyDone (flash : List Byte) (tUs : Word) (s : State) : Host.Outcome State Fault Refusal :=
  finish (match s.img.run with
    | none => s
    | some r =>
      if r.phase ≠ .checking then s
      else if r.op = 0 then slotChecked flash tUs r s
      else pushChecked r s)

/-- `FLASH_STATUS_READY` (R95): `readBack` is what the slot reads after the header is programmed. -/
def execFlashStatusReady (readBack : List Byte) (s : State) : Host.Outcome State Fault Refusal :=
  finish (storeStep readBack s)

/-- `FUSE_BLOW_DONE` (R83, R84, R116): the shadow follows in the same cycle. -/
def execFuseBlowDone (s : State) : Host.Outcome State Fault Refusal :=
  finish (match s.img.run with
    | none => s
    | some r =>
      if r.phase ≠ .blowing then s
      else if r.op = 4 then
        let n := (s.img.applied.map (·.hdr.rollback)).getD 0
        let f := { s.fuse with rollback := max s.fuse.rollback n }
        raiseM .imgRollbackCommitted f.rollback
          (endImg imNone { s with fuse := f, shadow := { s.shadow with rollback := f.rollback } })
      else
        let k := (List.range 8).flatMap (fun w => leBytes 4 (Tab.get 0 s.img.keyStage w).toNat)
        raiseM .imgKeyProgrammed 0
          (endImg imNone { s with fuse := { s.fuse with keyHash := some k },
                                  shadow := { s.shadow with keyHash := some k } }))

end Sys2Proof.Machine
end

