-- ==== Sys2Proof/Machine/CrewCmd.lean ====
section
/-! DEFINITION. Crew commands, resets of a crew, and the mailboxes (chapter 8). -/

namespace Sys2Proof.Machine

/-! Resets of a crew (R285 to R288, R296, R327, R328, R360). -/

/-- A transfer comes from a work ring. -/
def Xfer.fromRing (x : Xfer) : Bool := match x.origin with | .ring _ _ _ => true | _ => false

/-- A crew whose permission is gone stops counting once none of its BCASTs holds a slot (R284). -/
def bcastSettle (k : Nat) (s : State) : State :=
  let held := s.trks.any (fun t => t.2.slots.any (fun x => x.crew == k && !hasUp x.kind))
  if (s.crew k).bcastCounted && !(s.crew k).bcast && !held then s.updCrew k (fun c => { c with bcastCounted := false })
  else s

/-- No transaction of crew `k` holds a line slot. -/
def State.crewQuiet (s : State) (k : Nat) : Bool := s.trks.all (fun t => t.2.slots.all (fun x => x.crew != k))
/-- The reset or tear down of crew `k` may end: its transactions have ended and, of a tear down, the boundary at
which its almanac entries go has passed (R285, R287). -/
def State.resetReady (s : State) (k : Nat) : Bool :=
  s.crewQuiet k && ((s.crew k).st != .tearingDown
    || s.ctxs.all (fun c => !(c.2.used && c.2.owner == k && c.2.alm.removing)))

/-- The channels of crew `k` stop, at their reset values, and what they still had to issue is discarded; their cut bits clear;
its bindings end (R285 step 2, R360, R402). -/
def stopChannels (k : Nat) (s : State) : State :=
  let s := (List.range 32).foldl (fun s c =>
    if s.chOwner c = k then
      let s := releaseChannel c s
      (dropQueued (fun q => q.req == c) (discardReads (fun u => u.channel == some c) s)).setCh c {}
    else s) s
  let mine := fun (c : Nat) => decide (c < 32) && s.chOwner c == k
  updCtxs (fun _ c => c.used && c.owner == k) (fun c => { c with channel := none }) (clearCuts 2 mine (clearCuts 1 mine s))

/-- The transfers of crew `k` complete `CREW_RESET`; one in a slot does when its transaction has ended. -/
def resetXfers (k : Nat) (s : State) : State :=
  s.xfers.foldl (fun s x =>
    if x.2.ended || x.2.crew != k || !x.2.fromRing then s
    else if s.inSlot x.1 x.2.trunk then s.updXfer x.1 (fun y => { y with stopping := some stCrewReset })
    else endXfer x.1 stCrewReset s) s

/-- A reset or tear down begins (R285 steps 1 to 6). -/
def beginReset (k : Nat) (tear noHost : Bool) (s : State) : State :=
  let s := s.updCrew k (fun c => { c with st := if tear then .tearingDown else .resetting, noWrites := noHost })
  let s := discardReads (fun u => match u with | .desc k' _ _ _ => k' == k | _ => false) (stopChannels k s)
  let s := if noHost then dropQueued (fun q => q.fn == k) s else s
  let s := (List.range 4).foldl (fun s p => closePort k p s) (resetXfers k s)
  updCtxs (fun _ c => c.used && c.owner == k && (tear || c.alm.valid || c.alm.adding))
    (fun c => { c with alm := { c.alm with removing := true } }) s

/-- Entries of crew `k`'s rings not covered by a record. -/
def State.uncovered (s : State) (k : Nat) : Nat := ((List.range 8).map (fun r => ((s.ring k r).pi - (s.ring k r).done).toNat)).sum

/-- A crew's carries and statistics read 0 (R265). -/
def clearCarry (k : Nat) (s : State) : State :=
  let s := s.trks.foldl (fun s t => s.updTrk t.1 (fun t =>
    { t with credit := Tab.put 0 k 0 t.credit, deficit := Tab.put 0 k 0 t.deficit })) s
  s.updCrew k (fun c => { c with stat := [] })

/-- The end of a reset or tear down (R285 step 7, R286, R287, R327, R328): every register of the window returns
to its reset value (R513). -/
def finishReset (k : Nat) (s : State) : State :=
  let tear := (s.crew k).st == .tearingDown
  let host := !(s.crew k).noWrites && (s.crew k).bme
  let s := endWhere (fun _ x => x.crew == k && x.fromRing) stCrewReset s
  let s := (List.range 4).foldl (fun s p => closePortNow k p s) s
  let lost := s.uncovered k
  let s := if host then (List.range 8).foldl (fun s r => resetRecords k r s) s else s
  let s := s.updCrew k (fun c => { c with
    resetDropped := if c.noWrites && !tear then satAdd 0xFFFF lost 0 else c.resetDropped })
  let s := { s with xfers := s.xfers.filter (fun x => !(x.2.crew == k && x.2.fromRing)) }
  let s := updCtxs (fun _ c => c.used && c.owner == k) (fun c => { c with epm := c.epm.zero, occ := {} }) s
  let s := clearCarry k s
  let s := s.updCrew k (fun c => { c with
    rings := [], cqs := [], evt := {}, mboxUp := {}, mboxDn := {}, vecs := [], rxps := [], epmSel := 0,
    bindReason := 0, noWrites := false })
  if tear then
    let s := s.ctxs.foldl (fun s c => if c.2.used && c.2.owner == k then revokeCtx c.1 s else s) s
    raiseM .crewTornDown k (s.updCrew k (fun c => { c with
      st := .absent, extraTc := [], extraCells := 0, extraQueues := 0, bcast := false, bcastCounted := false,
      flrWait := false }))
  else raiseM .crewResetDone k (bcastSettle k (s.updCrew k (fun c => { c with st := .running, flrWait := false })))

/-- The transactions of crew `k` end at once, as lost responses (R296). -/
def loseSlots (k : Nat) (s : State) : State :=
  s.trks.foldl (fun s t => s.updTrk t.1 (fun t =>
    let gone := t.slots.filter (fun x => x.crew == k && hasUp x.kind)
    { t with slots := t.slots.filter (fun x => x.crew != k),
             timeouts := satAdd 0xFFFF t.timeouts gone.length,
             exchanges := t.exchanges ++ gone.map (fun x => ⟨x.hop, false⟩) })) s

/-- Begin, and end at once where nothing is left on the line. -/
def runReset (k : Nat) (tear noHost : Bool) (s : State) : State :=
  let s := beginReset k tear noHost s
  if s.resetReady k then finishReset k s else s

/-! The command engine (R271). -/

/-- A command ends. -/
def endCmd (op reason : Nat) (s : State) : State :=
  { s with cmd := { s.cmd with busy := false, reason := reason, lastOp := op, run := none, revoke := none } }
/-- A command that completes at once. -/
def crwOp (op : Nat) (f : State → Nat × State) (s : State) : State :=
  if !s.responds .crw then s
  else if s.cmd.busy then { s with cmd := { s.cmd with reason := cwBusy, lastOp := op } }
  else
    let r := if s.img.applied.isSome then f s else (cwState, s)
    endCmd op r.1 r.2
/-- A command that may take time: `f` begins it, or refuses. -/
def crwBegin (op k : Nat) (f : State → Nat × State) (s : State) : State :=
  if !s.responds .crw then s
  else if s.cmd.busy then { s with cmd := { s.cmd with reason := cwBusy, lastOp := op } }
  else
    let r := if s.img.applied.isSome then f s else (cwState, s)
    if r.1 = cwOk then { r.2 with cmd := { r.2.cmd with busy := true, run := some (op, k) } } else endCmd op r.1 r.2

/-- Why crew `k` cannot be created (Table 8.4, R272, Table 3.10). -/
def State.createReason (s : State) (k : Nat) : Nat :=
  if k = 0 ∨ (s.crew k).st ≠ .absent then cwState
  else if (s.sec k).isNone || decide (s.crewMax < k) || s.deltaChecks k then cwNoSection
  else if !s.pci.vfEnable || decide (s.pci.numVfs < k) then cwNoVf
  else cwOk

/-- The end of Create (R272); an FLR that came meanwhile follows (Table 8.9). -/
def finishCreate (k : Nat) (s : State) : State :=
  let sh := match s.sec k with | some c => (c.bulkMin, c.bulkWeight) | none => (0, 1)
  let flr := (s.crew k).flrWait
  let s := raiseM .crewCreated k (s.updCrew k (fun c => { c with
    st := .running, extraTc := [], extraCells := 0, extraQueues := 0, share := ⟨sh, sh⟩, mboxUp := {}, mboxDn := {},
    evt := {}, stat := [], resetDropped := 0, flrWait := false }))
  if flr then runReset k false true s else s

/-- A Reset or Tear down command. -/
def crwResetOp (op k : Nat) (tear : Bool) (s : State) : State :=
  let f : State → Nat × State := fun s =>
    if k = 0 ∨ (s.crew k).st ≠ .running then (cwState, s) else (cwOk, runReset k tear false s)
  let t := crwBegin op k f s
  if t.cmd.run = some (op, k) ∧ ((t.crew k).st = .running ∨ (t.crew k).st = .absent) ∧ s.cmd.busy = false then
    endCmd op cwOk t
  else t

/-- Why an extra grant cannot be set (R273). -/
def State.quotaReason (s : State) (k : Nat) : Nat :=
  let a : Int := s.cmd.amount
  if k = 0 ∨ (s.crew k).st ≠ .running then cwState
  else match s.cmd.resource with
  | 0 => if s.tcFree s.cmd.trunk k < a then cwOverPool else cwOk
  | 1 => if s.cellFree k < a then cwOverPool else cwOk
  | 2 => if s.queueFree k < a then cwOverPool else cwOk
  | _ => cwBadArg

/-- Set extra quota (R273, R274): in force at once. -/
def setQuota (k : Nat) (s : State) : Nat × State :=
  let r := s.quotaReason k
  if r ≠ cwOk then (r, s)
  else
    let c := s.cmd
    match c.resource with
    | 0 =>
      let s := s.updCrew k (fun w => { w with extraTc := Tab.put 0 c.trunk c.amount w.extraTc })
      (cwOk, raise k .quotaChanged c.trunk (s.tcQuota k c.trunk * 256) s)
    | 1 =>
      let s := s.updCrew k (fun w => { w with extraCells := c.amount })
      (cwOk, raise k .quotaChanged 255 (1 + s.cellQuota k * 256) s)
    | _ =>
      let s := s.updCrew k (fun w => { w with extraQueues := c.amount })
      (cwOk, raise k .quotaChanged 255 (2 + s.queueQuota k * 256) s)

/-- Set share (R275): class F. -/
def setShareOp (k : Nat) (s : State) : Nat × State :=
  let c := s.cmd
  if k = 0 then (cwBadArg, s)
  else if (s.crew k).st ≠ .running then (cwState, s)
  else if ((s.sec k).map (·.bulkMin)).getD 0 < c.amount ∨ 2048 ≤ c.amount ∨ c.weight = 0 then (cwBadArg, s)
  else (cwOk, s.updCrew k (fun w => { w with share := { w.share with written := (c.amount, c.weight) } }))

/-- Grant urgent broadcast (R283). -/
def grantBcast (k : Nat) (s : State) : Nat × State :=
  if k = 0 ∨ (s.crew k).st ≠ .running then (cwState, s)
  else if !((s.sec k).map (·.permBcast)).getD false then (cwNoPerm, cfgReject 0 0x100000 s)
  else (cwOk, s.updCrew k (fun c => { c with bcast := true, bcastCounted := true }))

/-- Withdraw urgent broadcast (R284). -/
def withdrawBcast (k : Nat) (s : State) : Nat × State :=
  if !(s.crew k).bcast then (cwState, s)
  else
    let s := s.updCrew k (fun c => { c with bcast := false })
    (cwOk, bcastSettle k (abortWhere (fun _ x => x.crew == k && x.op == .bcast) stAborted s))

/-- Revoke endpoint begins (R280). -/
def revokeOp (k : Nat) (s : State) : State :=
  let f : State → Nat × State := fun s =>
    match s.ctxOf s.cmd.trunk s.cmd.addr s.cmd.ep with
    | none => (cwNoEndpoint, s)
    | some c =>
      if (s.ctx c).revoking then (cwNoEndpoint, s)
      else
        let s := beginRevoke c s
        (cwOk, { s with cmd := { s.cmd with revoke := some c } })
  crwBegin 5 k f s

/-- The running command ends if it may. -/
def cmdStep (s : State) : State :=
  match s.cmd.run with
  | none => s
  | some (op, k) =>
    if op = 1 then endCmd 1 cwOk (finishCreate k s)
    else if op = 5 then match s.cmd.revoke with
      | none => endCmd 5 cwOk s
      | some c => if s.revokeReady c then endCmd 5 cwOk (revokeCtx c s) else s
    else if (s.crew k).st = .resetting ∨ (s.crew k).st = .tearingDown then
      if s.resetReady k then endCmd op cwOk (finishReset k s) else s
    else endCmd op cwOk s

/-- Resets that no command runs (FLR, VF Enable cleared) end where they may; `force` ends them at once (R296). -/
def strayResets (force : Bool) (s : State) : State :=
  ((List.range 64).drop 1).foldl (fun s k =>
    let busy := s.cmd.run.any (fun r => r.2 == k && (r.1 == 2 || r.1 == 3))
    if busy || !((s.crew k).st == .resetting || (s.crew k).st == .tearingDown) then s
    else if force then finishReset k (loseSlots k s)
    else if s.resetReady k then finishReset k s else s) s

/-- FLR of VF `k` (R286, Table 8.9). -/
def vfFlrOp (k : Nat) (s : State) : State :=
  if k = 0 ∨ !s.pci.vfEnable ∨ s.pci.numVfs < k ∨ s.crs then s
  else match (s.crew k).st with
  | .absent => s
  | .creating => s.updCrew k (fun c => { c with flrWait := true })
  | .running => runReset k false true (s.updCrew k (fun c => { c with bme := false }))
  | _ => dropQueued (fun q => q.fn == k) (s.updCrew k (fun c => { c with noWrites := true, bme := false }))

/-- The running command is for a crew: a revoke is for the crew that owns the context (Table 8.5). -/
def State.cmdForCrew (s : State) : Bool :=
  match s.cmd.run with
  | some (op, _) => op ≠ 5 || (match s.cmd.revoke with | some c => (s.ctx c).owner != 0 | none => false)
  | none => false

/-- VF Enable is cleared (R288): every crew is torn down without host writes, and their commands end.  While configuration
requests are answered with retry status the write does not take place (R89).  A revoke is the context's owner's (log 76). -/
def vfClear (s : State) : State :=
  if !s.pci.vfEnable || s.crs then s
  else
    let s := { s with pci := { s.pci with vfEnable := false } }
    let s := match s.cmd.run with
      | some (op, _) => if s.cmdForCrew then endCmd op cwState s else s
      | none => s
    ((List.range 64).drop 1).foldl (fun s k =>
      if (s.crew k).st = .absent then s
      else runReset k true true (s.updCrew k (fun c => { c with bme := false }))) s

/-! Mailboxes (R289, R290). -/

/-- The snapshot of a message (R289). -/
def Mbox.take (m : Mbox) (len seq : Nat) : Mbox :=
  { m with buffer := m.staging.filter (fun w => decide (w.1 < len)), pending := true, seq := seq }

/-- A doorbell of one direction (R289): `get` and `set` reach the direction's mailbox. -/
def doorbell (k sender receiver : Nat) (get : Crew → Mbox) (set : Mbox → Crew → Crew) (len seq : Nat) (s : State) :
    State :=
  let m := get (s.crew k)
  if len = 0 ∨ 16 < len then s
  else if m.pending then raise sender .mbxDropped 255 (pairDetail k seq) (s.updCrew k (set { m with busyDrop := true }))
  else if seq % 256 ≠ (m.seq + 1) % 256 then
    raise sender .mbxSeqErr 255 (pairDetail k seq) (s.updCrew k (set { m with seqErr := true }))
  else raise receiver .mbxReceived 255 (pairDetail k seq) (s.updCrew k (set (m.take len (seq % 256))))

/-- An acknowledgement of one direction (R290). -/
def mbxAck (k sender : Nat) (get : Crew → Mbox) (set : Mbox → Crew → Crew) (seq : Nat) (s : State) : State :=
  let m := get (s.crew k)
  if m.pending && m.seq == seq % 256 then
    raise sender .mbxAcked 255 (pairDetail k m.seq) (s.updCrew k (set { m with pending := false }))
  else s

/-- Replace the up mailbox. -/
def setUp (m : Mbox) (c : Crew) : Crew := { c with mboxUp := m }
/-- Replace the down mailbox. -/
def setDn (m : Mbox) (c : Crew) : Crew := { c with mboxDn := m }

/-! Meanings. -/

/-- Create begins (R272). -/
def createOp (k : Nat) (s : State) : State :=
  crwBegin 1 k (fun s =>
    (s.createReason k, if s.createReason k = cwOk then s.updCrew k (fun c => { c with st := .creating }) else s)) s
/-- Grant endpoint (R278): RUNNING, or crew 0. -/
def grantOp (k : Nat) (s : State) : State :=
  crwOp 4 (fun s =>
    if k ≠ 0 ∧ (s.crew k).st ≠ .running then (cwState, s)
    else grantCtx s.cmd.trunk s.cmd.addr s.cmd.ep k s) s
/-- An up doorbell, in the crew's window (R289). -/
def upDoorbell (k len seq : Nat) (s : State) : State :=
  if s.regOk .window k .crw then doorbell k k 0 (·.mboxUp) setUp len seq s else s
/-- A down doorbell, in the CRW block (R289). -/
def dnDoorbell (k len seq : Nat) (s : State) : State :=
  if s.regOk .window k .crw then doorbell k 0 k (·.mboxDn) setDn len seq s else s
/-- An up acknowledgement, in the CRW block (R290). -/
def upAck (k seq : Nat) (s : State) : State :=
  if s.responds .crw && decide (k ≠ 0) then mbxAck k k (·.mboxUp) setUp seq s else s
/-- A down acknowledgement (R290): the register responds in RESETTING too (Table 8.3). -/
def dnAck (k seq : Nat) (s : State) : State :=
  if s.responds .crw && decide (k ≠ 0) && (s.crewRuns k || (s.crew k).st == .resetting) then
    mbxAck k 0 (·.mboxDn) setDn seq s else s

/-- `CREATE` (R272). -/
def execCrwCreate (crew : Fin 64) (s : State) : Host.Outcome State Fault Refusal := finish (createOp crew s)
/-- `TEAR_DOWN` (R287). -/
def execCrwTearDown (crew : Fin 64) (s : State) : Host.Outcome State Fault Refusal := finish (crwResetOp 2 crew true s)
/-- `CRW_RESET` (R285). -/
def execCrwReset (crew : Fin 64) (s : State) : Host.Outcome State Fault Refusal := finish (crwResetOp 3 crew false s)
/-- `GRANT_ENDPOINT` (R278). -/
def execGrantEndpoint (crew : Fin 64) (s : State) : Host.Outcome State Fault Refusal :=
  finish (grantOp crew s)
/-- `REVOKE_ENDPOINT` (R280). -/
def execRevokeEndpoint (crew : Fin 64) (s : State) : Host.Outcome State Fault Refusal := finish (revokeOp crew s)
/-- `SET_EXTRA_QUOTA` (R273). -/
def execSetExtraQuota (crew : Fin 64) (s : State) : Host.Outcome State Fault Refusal :=
  finish (crwOp 6 (setQuota crew) s)
/-- `SET_SHARE` (R275). -/
def execSetShare (crew : Fin 64) (s : State) : Host.Outcome State Fault Refusal := finish (crwOp 7 (setShareOp crew) s)
/-- `GRANT_URGENT_BROADCAST` (R283). -/
def execGrantUrgentBroadcast (crew : Fin 64) (s : State) : Host.Outcome State Fault Refusal :=
  finish (crwOp 8 (grantBcast crew) s)
/-- `WITHDRAW_URGENT_BROADCAST` (R284). -/
def execWithdrawUrgentBroadcast (crew : Fin 64) (s : State) : Host.Outcome State Fault Refusal :=
  finish (crwOp 9 (withdrawBcast crew) s)
/-- `CREW_CMD_COMPLETE` (R271). -/
def execCrewCmdComplete (s : State) : Host.Outcome State Fault Refusal := finish (cmdStep (strayResets false s))
/-- `CREW_CMD_TIMEOUT` (R296). -/
def execCrewCmdTimeout (s : State) : Host.Outcome State Fault Refusal :=
  finish (match s.cmd.run with
    | some (op, k) =>
      if (op = 2 ∨ op = 3) ∧ ((s.crew k).st = .resetting ∨ (s.crew k).st = .tearingDown) then
        endCmd op cwOk (finishReset k (loseSlots k s))
      else strayResets true s
    | none => strayResets true s)
/-- `VF_FLR` (R286). -/
def execVfFlr (crew : Fin 64) (s : State) : Host.Outcome State Fault Refusal := finish (vfFlrOp crew s)
/-- `VF_ENABLE_CLEAR` (R288). -/
def execVfEnableClear (s : State) : Host.Outcome State Fault Refusal := finish (vfClear s)
/-- `MBX_UP_DB` (R289). -/
def execMbxUpDb (crew : Fin 64) (len seq : Nat) (s : State) : Host.Outcome State Fault Refusal :=
  finish (upDoorbell crew len seq s)
/-- `MBX_DN_DB` (R289). -/
def execMbxDnDb (crew : Fin 64) (len seq : Nat) (s : State) : Host.Outcome State Fault Refusal :=
  finish (dnDoorbell crew len seq s)
/-- `MBX_UP_ACK` (R290). -/
def execMbxUpAck (crew : Fin 64) (seq : Nat) (s : State) : Host.Outcome State Fault Refusal :=
  finish (upAck crew seq s)
/-- `MBX_DN_ACK` (R290). -/
def execMbxDnAck (crew : Fin 64) (seq : Nat) (s : State) : Host.Outcome State Fault Refusal :=
  finish (dnAck crew seq s)

end Sys2Proof.Machine
end

