-- ==== Sys2Proof/Machine/Almanac.lean ====
section
/-! DEFINITION. The almanac: budgets, first-fit placement at both ends, adds, removals, hub event entries
(R236 to R243, R257 to R262). -/

namespace Sys2Proof.Machine

/-- Start of the periodic part of trunk `n` (R232), 0.1 us. -/
def State.p0 (s : State) (n : Nat) : Nat := 29 * tau (s.trk n).rateEff + (s.trk n).urgentUs * 10
/-- The latest end of a periodic downstream packet (R232). -/
def State.capEnd (s : State) (n : Nat) : Nat := s.p0 n + (s.trk n).capUs * 10

/-- The transaction of an occurrence at its longest (R159, Table 7.3). -/
def Ctx.polls (x : Ctx) : TxnKind :=
  if x.kind = 1 then .tokenP false else .dataP false (List.replicate x.longest 0)
/-- Hop count of a context's node from the head end, or from the tail end (R241). -/
def State.almHop (s : State) (x : Ctx) (tail : Bool) : Nat :=
  let p := ((s.entry x.entry).map (·.hub)).getD 1
  max 1 (if tail then (s.trk x.trunk).tailN + 1 - p else p)
/-- The quantities of an entry at one end (R234, R241). -/
def State.almQuant (s : State) (x : Ctx) (tail : Bool) : Quant :=
  quantities (s.trk x.trunk).rateEff (s.dtx x.trunk) x.longest (s.almHop x tail) x.polls

/-- An entry is in force or completed and about to be. -/
def Alm.present (a : Alm) : Bool := a.valid || a.adding
/-- An entry is due in frame `f` (R238). -/
def Alm.dueIn (a : Alm) (f : Nat) : Bool := decide (f % 2 ^ a.ilog2 = a.phase)
/-- The offset of an entry at one end. -/
def Alm.off (a : Alm) (tail : Bool) : Nat := if tail then a.offTail else a.offHead
/-- The cost of an entry at one end. -/
def Alm.cost (a : Alm) (tail : Bool) : Nat := if tail then a.costTail else a.costHead
/-- The offset that marks an unplaced tail (Table 7.4). -/
def offNone : Nat := 0x3FFF

/-- The 256 frame phases in which an interval and phase are due (R238). -/
def dueFrames (ilog2 phase : Nat) : List Nat := (List.range 256).filter (fun f => f % 2 ^ ilog2 = phase)
/-- The contexts of trunk `n` with an entry due in frame `f`, but for those passed over. -/
def State.almDue (s : State) (n f : Nat) (skip : Nat → Bool) : List (Nat × Ctx) :=
  s.ctxs.filter (fun c => c.2.used && c.2.trunk == n && c.2.alm.present && c.2.alm.dueIn f && !skip c.1)
/-- What the entries due in frame `f` hold of the line at one end (R235). -/
def State.almResv (s : State) (n f : Nat) (tail : Bool) (skip : Nat → Bool) : List Resv :=
  ((s.almDue n f skip).filter (fun c => decide (c.2.alm.off tail ≠ offNone))).map
    (fun c => (s.almQuant c.2 tail).resv (c.2.alm.off tail) true (some c.1))

/-- The owner's bound on trunk `n` in 0.1 us (R239). -/
def State.almBound (s : State) (n k : Nat) : Nat :=
  match s.img.applied with
  | none => 0
  | some im =>
    if k = 0 then ((s.trk n).capUs - im.sumSec (fun c => c.almUs.getD n 0)) * 10
    else ((im.sec k).map (fun c => c.almUs.getD n 0)).getD 0 * 10
/-- What owner `k`'s entries due in frame `f` cost at one end. -/
def State.almCost (s : State) (n f k : Nat) (tail : Bool) (skip : Nat → Bool) : Nat :=
  (((s.almDue n f skip).filter (fun c => c.2.owner == k)).map (fun c => c.2.alm.cost tail)).sum
/-- The budget of R239 at one end. -/
def State.budgetOk (s : State) (x : Ctx) (ilog2 phase : Nat) (tail : Bool) (skip : Nat → Bool) : Bool :=
  (dueFrames ilog2 phase).all (fun f =>
    decide (s.almCost x.trunk f x.owner tail skip + (s.almQuant x tail).cost ≤ s.almBound x.trunk x.owner))

/-- The placement of an entry at one end (R240, R241). -/
def State.place (s : State) (x : Ctx) (ilog2 phase : Nat) (tail : Bool) (skip : Nat → Bool) : Option Nat :=
  let q := s.almQuant x tail
  let sets := (dueFrames ilog2 phase).map (fun f => s.almResv x.trunk f tail skip)
  firstOff (fun o => sets.all (fun rs => fitsAt rs q true o)) q.d (s.capEnd x.trunk) ((s.trk x.trunk).capUs * 10 + 1)
    (s.p0 x.trunk)

/-- A tail placement is made: the trunk is pair-fed and N is learnt (R241, R441). -/
def State.placesTail (s : State) (n : Nat) : Bool := s.pairFed n && (s.trk n).tailLearnt

/-- Place an entry at both ends with one phase; `budget` asks for R239 as well. -/
def State.placeBoth (s : State) (x : Ctx) (ilog2 phase : Nat) (budget : Bool) (skip : Nat → Bool) : Nat × Option Alm :=
  let t := s.placesTail x.trunk
  if budget && !(s.budgetOk x ilog2 phase false skip && (!t || s.budgetOk x ilog2 phase true skip)) then
    (alOverBudget, none)
  else match s.place x ilog2 phase false skip with
  | none => (alNoFit, none)
  | some o =>
    let a : Alm := { x.alm with ilog2 := ilog2, phase := phase, offHead := o, costHead := (s.almQuant x false).cost,
                                offTail := offNone, costTail := 0, crew := x.owner }
    if !t then (alOk, some a)
    else match s.place x ilog2 phase true skip with
    | none => (alNoFit, none)
    | some p => (alOk, some { a with offTail := p, costTail := (s.almQuant x true).cost })

/-- Try phases in order (R243): the first that passes; otherwise OVER_BUDGET only where every phase breaks the
budget. -/
def State.tryPhases (s : State) (x : Ctx) (ilog2 : Nat) (skip : Nat → Bool) : List Nat → Nat → Nat × Option Alm
  | [], r => (r, none)
  | p :: t, r =>
    match s.placeBoth x ilog2 p true skip with
    | (_, some a) => (alOk, some a)
    | (c, none) => s.tryPhases x ilog2 skip t (if c = alNoFit then alNoFit else r)

/-- Place an entry: the named phase, or 0, 1 and upward for 0xFF. -/
def State.placeNew (s : State) (x : Ctx) (ilog2 phase : Nat) (skip : Nat → Bool) : Nat × Option Alm :=
  s.tryPhases x ilog2 skip (if phase = 0xFF then List.range (2 ^ ilog2) else [phase]) alOverBudget

/-- The words of an entry (Table 7.4). -/
def Alm.words (a : Alm) (c : Nat) : List Word :=
  [BitVec.ofNat 32 (c + bit a.present * 0x4000 + bit a.hubEv * 0x8000 + a.ilog2 * 0x10000 + a.phase * 0x100000),
   BitVec.ofNat 32 (a.offHead + a.offTail * 0x10000), BitVec.ofNat 32 (a.costHead + a.costTail * 0x10000),
   BitVec.ofNat 32 (a.crew + a.lastStatus * 0x100)]

/-- The context belongs to a hub (R258). -/
def State.isHubCtx (s : State) (x : Ctx) : Bool := ((s.entry x.entry).map (·.isHub)).getD false
/-- The context is there and periodic. -/
def Ctx.isPeriodic (x : Ctx) : Bool := x.used && periodic x.kind

/-- An add completes (R239 to R243, Table 7.10). -/
def almAddOp (c ilog2 phase : Nat) (s : State) : State :=
  let x := s.ctx c
  let fail := fun (r : Nat) => { s with cox := { s.cox with busy := false, reason := r, run := none } }
  if !x.isPeriodic then fail alNotPeriodic
  else if s.isHubCtx x then fail alBadArg
  else if x.alm.present then fail alExists
  else if 8 < ilog2 ∨ (phase ≠ 0xFF ∧ 2 ^ ilog2 ≤ phase) then fail alBadArg
  else match s.placeNew x ilog2 phase (fun _ => false) with
  | (r, none) => fail r
  | (_, some a) =>
    let a := { a with adding := true, valid := false, removing := false, lastStatus := 0 }
    { s.updCtx c (fun x => { x with alm := a }) with
      cox := { s.cox with busy := false, reason := alOk, phase := a.phase, entry := a.words c, run := none } }

/-- A remove completes (R243, R258). -/
def almRemoveOp (c : Nat) (s : State) : State :=
  let x := s.ctx c
  let done := fun (r : Nat) (s : State) => { s with cox := { s.cox with busy := false, reason := r, run := none } }
  if !x.isPeriodic then done alNotPeriodic s
  else if s.isHubCtx x then done alBadArg s
  else if !x.alm.present then done alNoEntry s
  else done alOk (s.updCtx c (fun x => { x with alm := { x.alm with removing := true } }))

/-- A read (R262): the four words, or a reason. -/
def almReadOp (c : Nat) (s : State) : State :=
  let x := s.ctx c
  if !x.isPeriodic then { s with cox := { s.cox with reason := alNotPeriodic } }
  else if !x.alm.present then { s with cox := { s.cox with reason := alNoEntry } }
  else { s with cox := { s.cox with reason := alOk, entry := x.alm.words c } }

/-- Start a command of `COX_ALM_CMD` (R262): BUSY while one runs; a read ends at once. -/
def almBegin (op c ilog2 phase : Nat) (s : State) : State :=
  if !s.responds .cox then s
  else if s.cox.busy then { s with cox := { s.cox with reason := alBusy } }
  else if op = 3 then almReadOp c s
  else { s with cox := { s.cox with busy := true, run := some (op, c, ilog2, phase) } }

/-- The running add or remove completes. -/
def almComplete (s : State) : State :=
  match s.cox.run with
  | none => s
  | some (op, c, ilog2, phase) => if op = 1 then almAddOp c ilog2 phase s else almRemoveOp c s

/-- Least unused manager time over the 256 frame phases (`COX_TRK_MGRFREE`), at the ends that are placed. -/
def State.mgrFree (s : State) (n : Nat) : Nat :=
  let used := fun (t : Bool) => ((List.range 256).map (fun f => s.almCost n f 0 t (fun _ => false))).foldl max 0
  s.almBound n 0 - (if s.placesTail n then max (used false) (used true) else used false)

/-- The controller places the event entry of a hub's EP1 (R204, R237). -/
def placeHub (c : Nat) (s : State) : Bool × State :=
  let x := s.ctx c
  match s.placeNew x s.ros.evLog2.inForce 0xFF (· == c) with
  | (_, some a) => (true, s.updCtx c (fun x => { x with alm := { a with hubEv := true, adding := true, valid := false } }))
  | (_, none) => (false, s)

/-- A frame boundary: what completed takes effect (R243). -/
def almBoundary (s : State) : State :=
  updCtxs (fun _ c => c.alm.removing || c.alm.adding)
    (fun c => if c.alm.removing then { c with alm := {}, occ := {} }
      else { c with alm := { c.alm with valid := true, adding := false } }) s

/-- The entries of a trunk in ascending context order. -/
def State.almOf (s : State) (n : Nat) : List Nat :=
  (s.ctxs.filter (fun c => c.2.used && c.2.trunk == n && c.2.alm.present)).map (·.1)

/-- Every tail placement of a trunk is computed again (R242). -/
def replaceTails (n : Nat) (s : State) : State :=
  let all := s.almOf n
  let s := all.foldl (fun s c => s.updCtx c (fun x => { x with alm := { x.alm with offTail := offNone, costTail := 0 } })) s
  if !s.placesTail n then s
  else all.foldl (fun s c =>
    let x := s.ctx c
    match s.place x x.alm.ilog2 x.alm.phase true (· == c) with
    | some p => s.updCtx c (fun x => { x with alm := { x.alm with offTail := p, costTail := (s.almQuant x true).cost } })
    | none => raise 0 .almTailUnplaced n c s) s

/-- A change of `ROS_CFG.hub_ev_log2` (Table 7.9): each hub entry again with the new interval, by trunk and then
by hub position; one that fails keeps its old interval. -/
def replaceHubEvents (s : State) : State :=
  (List.range 8).foldl (fun s n => (List.range 65).foldl (fun s p =>
    match s.entryAt n p 0 with
    | none => s
    | some (_, e) => match s.ctxOf n e.addr 1 with
      | none => s
      | some c =>
        let x := s.ctx c
        if !e.isHub || !x.alm.present then s
        else match s.placeNew x s.ros.evLog2.inForce 0xFF (· == c) with
        | (_, some a) => s.updCtx c (fun x => { x with alm := { a with hubEv := true } })
        | (_, none) => raise 0 .almHubUnplaced n (pairDetail p 0) s) s) s

/-- A new pair of plan values breaks Table 7.8 or moves a placed entry out of the window (R264). -/
def State.planOk (s : State) (n urgent cap : Nat) : Bool :=
  let t29 := 29 * tau (s.trk n).rateEff
  let sum := (s.img.applied.map (fun im => im.sumSec (fun c => c.almUs.getD n 0))).getD 0
  let p0 := t29 + urgent * 10
  decide (urgent ≤ 200) && decide (sum ≤ cap) && decide (cap * 10 + urgent * 10 + t29 ≤ 9000)
    && (s.almOf n).all (fun c =>
      let x := s.ctx c
      let inside := fun (tail : Bool) => x.alm.off tail == offNone
        || (decide (p0 ≤ x.alm.off tail) && decide (x.alm.off tail + (s.almQuant x tail).d ≤ p0 + cap * 10))
      inside false && inside true)

/-- `ADD` (R239). -/
def execAlmAdd (ctx : Fin 16384) (ilog2 phase : Nat) (s : State) : Host.Outcome State Fault Refusal :=
  finish (almBegin 1 ctx (ilog2 % 16) (phase % 256) s)
/-- `REMOVE` (R243). -/
def execAlmRemove (ctx : Fin 16384) (s : State) : Host.Outcome State Fault Refusal := finish (almBegin 2 ctx 0 0 s)
/-- `ALM_READ` (R262). -/
def execAlmRead (ctx : Fin 16384) (s : State) : Host.Outcome State Fault Refusal := finish (almBegin 3 ctx 0 0 s)
/-- `ALM_OP_COMPLETE` (R243). -/
def execAlmOpComplete (s : State) : Host.Outcome State Fault Refusal := finish (almComplete s)

end Sys2Proof.Machine
end

