-- ==== Sys2Proof/Machine/Time.lean ====
section
/-! DEFINITION. The time service and the pulse (chapter 13). -/

namespace Sys2Proof.Machine

/-- Effective value of calibration item index `k`. -/
def State.calEff (s : State) (k : Nat) : Int := Tab.get 0 s.cal.eff k
/-- The pair is paired (Table 14.2). -/
def Tdm.paired (t : Tdm) : Bool := t.pair == .joining || t.pair == .mirrored || t.pair == .unmirrored
/-- Device time moves forward to an instant; elapsed time follows at the rate in force (R408). -/
def Tim.reach (t : Tim) (target : Nat) : Tim :=
  if target ≤ t.ns then t
  else { t with ns := target, sub := 0,
                elapsed := t.elapsed + (((target - t.ns : Nat) : Rat) / (1 + t.rate / 1000000000)).floor.toNat }
/-- The instant `target` of device time has come: none where a frame boundary lies before it. -/
def Tim.upTo (t : Tim) (target : Nat) : Option Tim :=
  if !t.running then none
  else if target ≤ max t.ns t.nextBoundary then some (t.reach target) else none
/-- The instant `e` of elapsed time has come: none where a frame boundary lies before it. -/
def Tim.elapsedTo (t : Tim) (e : Nat) : Option Tim :=
  if !t.running then none
  else if e ≤ t.elapsed then some t
  else
    let n := t.ns + ((((e - t.elapsed : Nat) : Rat) * (1 + t.rate / 1000000000)).ceil.toNat)
    if n ≤ t.nextBoundary then some { t with ns := n, sub := 0, elapsed := e } else none
/-- The size of a sample. -/
def absR (r : Rat) : Rat := if r < 0 then -r else r
/-- The partner source is valid (Table 13.1): the partner's state and source are those its last time block
came with. -/
def State.partnerOk (s : State) : Bool :=
  s.tdm.paired && s.tdm.partnerState % 4 == 1 && s.tdm.partnerState / 4 % 4 != 2
/-- Source `c` is valid. -/
def Tim.valid (t : Tim) (c : Nat) : Bool :=
  match c with | 1 => t.valid1 | 2 => t.valid2 | 3 => t.valid3 | _ => false
/-- The first valid source of `TIM_CFG.src_order` (R412), 0 for none. -/
def Tim.select (t : Tim) : Nat :=
  (([0, 2, 4].map (fun i => t.srcOrder.toNat / 2 ^ i % 4)).find? t.valid).getD 0
/-- Some source is valid (Table 13.3). -/
def Tim.anyValid (t : Tim) : Bool := t.valid1 || t.valid2 || t.valid3
/-- Limit to plus or minus 200,000 ppb. -/
def limitRate (r : Rat) : Rat := max (-200000) (min 200000 r)

/-- VIGIL is entered: the held rate is fixed (R417). -/
def enterVigil (s : State) : State :=
  let t := s.tim
  let held : Rat := if t.lockedRates.length < 16 then ((-(s.calEff 10) : Int) : Rat)
    else t.lockedRates.sum / (t.lockedRates.length : Rat)
  raiseM .timeVigil 0 { s with tim := { t with state := .vigil, held := held, integ := held, rate := held, vigilAt := t.ns } }
/-- LOCKED is entered. -/
def enterLocked (s : State) : State :=
  raiseM .timeLocked 0 { s with tim := { s.tim with state := .locked } }
/-- FREE_RUN is entered: only the quality changes (R417). -/
def enterFreeRun (s : State) : State :=
  raiseM .timeFreeRun 0 { s with tim := { s.tim with state := .freeRun, rate := s.tim.held } }

/-- A change of selected source (R412, R414, Table 13.7). -/
def newSource (c : Nat) (s : State) : State :=
  let t := { s.tim with source := c, step := none }
  let t := if c = 0 then { t with converged := false, convRun := 0, slewing := false } else t
  raiseM .timeSourceChanged 0 { s with tim := t }

/-- The sources are judged again: validity of the partner, the selected source, the state (R410 to R416). -/
def timeSources (s : State) : State :=
  let ok := s.partnerOk
  let lost := s.tim.valid2 && !ok
  let s := { s with tim := { s.tim with valid2 := ok } }
  let s := if lost then raiseM .timeRefLost 2 s else s
  let c := s.tim.select
  let s := if c = s.tim.source then s else newSource c s
  match s.tim.state, s.tim.anyValid with
  | .locked, false => enterVigil s
  | .unset, false => { s with tim := { s.tim with rate := s.tim.held } }
  | .vigil, true => enterLocked s
  | .freeRun, true => enterLocked s
  | _, _ => s

/-- A reference stops being valid (R410, R412): REFPPS 1.5 s after its last good edge, the manager's 4 s after its last
sample, in elapsed time; the partner's validity follows the pair alone. -/
def refLost (c : Nat) (s : State) : State :=
  match c with
  | 1 => match s.tim.valid1, s.tim.elapsedTo (s.tim.ppsSeen + 1500000000) with
    | true, some t => timeSources (raiseM .timeRefLost 1
        { s with tim := { t with valid1 := false, ppsGood := 0, ppsTheta := none } })
    | _, _ => s
  | 3 => match s.tim.valid3, s.tim.elapsedTo (s.tim.mgrSeen + 4000000000) with
    | true, some t => timeSources (raiseM .timeRefLost 3 { s with tim := { t with valid3 := false, mgrTheta := none } })
    | _, _ => s
  | _ => s

/-- A timestamp in root-PLL cycles of 5/12 ns, in ns (Table 13.1). -/
def stampNs (stamp : Int) : Rat := (stamp : Rat) * 5 / 12
/-- A REFPPS edge, timestamped in root-PLL cycles (R410, R411). -/
def ppsEdge (stamp : Int) (s : State) : State :=
  let t := s.tim
  let at' := stampNs stamp - ((s.calEff 20 : Int) : Rat)
  let theta : Rat := at' - (((at' + 500000000) / 1000000000).floor * 1000000000 : Int)
  let good := match t.ppsLast with
    | none => true
    | some p => decide (2 ≤ t.ppsBad)
        || (decide (999000000 ≤ stampNs (stamp - p)) && decide (stampNs (stamp - p) ≤ 1001000000))
  let first := t.ppsLast.isNone || decide (2 ≤ t.ppsBad)
  if good then
    let n := if first then 1 else t.ppsGood + 1
    timeSources { s with tim :=
      { t with ppsLast := some stamp, ppsGood := n, ppsBad := 0, ppsTheta := some theta, ppsSeen := t.elapsed,
               valid1 := t.valid1 || decide (3 ≤ n) } }
  else { s with tim := { t with ppsBad := t.ppsBad + 1, ppsGood := 0, ppsRejected := satAdd 0xFFFF t.ppsRejected 1 } }

/-- The sample of the selected source for this second; the partner's and REFPPS's are used once. -/
def Tim.sample (t : Tim) : Option Rat × Tim :=
  match t.source with
  | 1 => (t.ppsTheta, { t with ppsTheta := none })
  | 2 => (t.partnerTheta, { t with partnerTheta := none })
  | 3 => (t.mgrTheta, t)
  | _ => (none, t)

/-- The loop on one sample (R413, R414, R421); which way `TIM_OFFSET` rounds to whole ns is open (log 1). -/
def Tim.loop (t : Tim) (up : Bool) (theta : Rat) : Tim :=
  let a := absR theta
  let run := if a ≤ 1000 then t.convRun + 1 else 0
  let t := { t with theta := max (-2147483648) (min 2147483647 (if up then theta.ceil else theta.floor)), convRun := run,
                    converged := (t.converged && decide (a ≤ 10000)) || decide (4 ≤ run) }
  let u : Tim := if a < 50000 then
      let i := limitRate (t.integ - theta / ((2 ^ t.ki : Nat) : Rat))
      { t with integ := i, rate := limitRate (i - theta / ((2 ^ t.kp : Nat) : Rat)), slewing := false }
    else if theta < 0 ∨ t.allowBack then { t with step := some (-theta) }
    else { t with slewing := true, rate := -200000 }
  if u.state = .locked then { u with lockedRates := (u.lockedRates ++ [u.rate]).drop (u.lockedRates.length - 63) } else u

/-- A step applies at a whole second (R422): the boundary there becomes a step frame.  A step of a part of a nanosecond
goes into the fraction. -/
def applyStep (d : Rat) (s : State) : State :=
  let new := ((s.tim.ns : Int) + d.floor).toNat
  let us := max (-2147483648) (min 2147483647 (d / 1000).floor)
  raiseM .timeStepped (us % 0x100000000).toNat
    { s with tim := { s.tim with ns := new, sub := ((d - (d.floor : Rat)) * (2 ^ 32 : Nat)).floor.toNat, nextBoundary := new,
                                 nextSecond := new / nsPerSecond + 1, step := none, pulseDone := none,
                                 steps := satAdd 0xFFFF s.tim.steps 1 } }

/-- Device time is labelled (R416, R418, R420). -/
def label (d : Rat) (s : State) : State :=
  let s := raiseM .timeSet 0 (applyStep d { s with tim := { s.tim with setWait := false } })
  if s.tim.anyValid then enterLocked s else enterFreeRun s

/-- `TIME_SECOND`: a set or label is applied, which in UNSET goes before a pending step, whose sample it outdates; then a
pending step; otherwise the sample drives the loop (R413, R418, R420 to R422). -/
def second (s : State) : State :=
  if !s.tim.running then s
  else
    let whole := s.tim.nextSecond * nsPerSecond
    let t := s.tim.reach whole
    let s := timeSources { s with tim := { t with nextSecond := t.nextSecond + 1 } }
    let set : Nat := s.tim.setHi.toNat * 0x100000000 + s.tim.setLo.toNat
    if s.tim.state = .unset ∧ s.tim.setWait then label ((((set : Int) - whole : Int)) : Rat) s
    else match s.tim.state, s.tdm.paired && s.tdm.partnerState % 4 != 0, s.tim.partnerTheta with
    | .unset, true, some th => label (-th) { s with tim := { s.tim with partnerTheta := none } }
    | _, _, _ =>
      match s.tim.step with
      | some d =>
        let r := s.tim.sample
        applyStep d (if d < 0 then raiseM .timeBackstep 0 { s with tim := r.2 } else { s with tim := r.2 })
      | none =>
        match s.tim.sample with
        | (none, t) => { s with tim := t }
        | (some th, t) => { s with freeCtr := s.freeCtr + 1, tim := t.loop (Config.roundUp s.freeCtr) th }

/-- The whole second whose pulse this is (R423). -/
def State.pulseSecond (s : State) : Nat := ((s.tim.ns + s.calEff 19 + 500000000) / 1000000000).toNat
/-- The width in force (Table 13.6). -/
def clampWidth (w : Nat) : Nat := if w = 0 then 1 else min 400000 w

/-- The device time at which `TPULSE` rises for whole second `k` (R423). -/
def State.pulseAt (s : State) (k : Nat) : Nat := ((k : Int) * 1000000000 - s.calEff 19).toNat
/-- `TPULSE` rises for a whole second once the pulse has started, when device time reads that second less TPULSE_DELAY, or
is skipped (R423, R425, R426); a step leaves a started pulse running (R424). -/
def pulseRise (s : State) : State :=
  let k := s.pulseSecond
  if !s.tim.pulseStart || (!s.tim.pulseRunning && decide (k < s.tim.pulseFirst)) || s.tim.pulseHigh
      || s.tim.pulseDone == some k || decide (s.pulseAt k + 10 < s.tim.ns) then s
  else match s.tim.upTo (s.pulseAt k) with
  | none => s
  | some t =>
    if (match t.pulseLast with | some e => decide (t.elapsed < e + 500000000) | none => false) then
      raiseM .pulseSkipped 0 { s with tim := { t with pulseDone := some k } }
    else emit (.tpulse true) { s with tim :=
      { t with pulseHigh := true, pulseRunning := true, pulseLast := some t.elapsed, pulseDone := some k,
               pulseWidthNow := clampWidth t.pulseWidth } }
/-- `TPULSE` falls after its width of elapsed time (R423, R426). -/
def pulseFall (s : State) : State :=
  if !s.tim.pulseHigh then s
  else match s.tim.elapsedTo (s.tim.pulseLast.getD 0 + s.tim.pulseWidthNow * 1000) with
  | none => s
  | some t => emit (.tpulse false) { s with tim := { t with pulseHigh := false } }

/-- A hop-delay sample of the hub at position `p`, hop count `h` (R427): the round trip in LCLK cycles of 5 ns,
averages in 1/16 ns; the rounding of the average is open (log 1). -/
def hopSample (n p h rtt : Nat) (s : State) : State :=
  let x := (s.trk n).hub p
  let twice : Int := (rtt * 5 : Nat) - 2000
  let one : Int := twice * 8
  if twice < 2 * (s.dtx n : Nat) ∨ ((2 * h * 1600 + 2 * s.dtx n : Nat) : Int) < twice then s
  else if !x.dlyValid then s.updTrk n (·.updHub p (fun x => { x with dly := one.toNat % 0x1000000, dlyValid := true, dlyRej := 0 }))
  else if 4 ≤ x.dlyRej then
    raise 0 .timeHopReset n p (s.updTrk n (·.updHub p (fun x => { x with dly := one.toNat % 0x1000000, dlyRej := 0 })))
  else if 320 < (one - x.dly).natAbs then s.updTrk n (·.updHub p (fun x => { x with dlyRej := x.dlyRej + 1 }))
  else
    let diff := one - x.dly
    let part := if Config.roundUp s.freeCtr then -((-diff) / 8) else diff / 8
    { s with freeCtr := s.freeCtr + 1 }.updTrk n (·.updHub p (fun x =>
      { x with dly := (x.dly + part).toNat % 0x1000000, dlyRej := 0 }))

/-- `TIME_SECOND` (R413). -/
def execTimeSecond (s : State) : Host.Outcome State Fault Refusal := finish (second s)
/-- `REFPPS_EDGE` (R411). -/
def execRefppsEdge (stamp : Int) (s : State) : Host.Outcome State Fault Refusal :=
  finish (if s.tim.running then ppsEdge stamp s else s)
/-- The code of a source (Table 13.1). -/
def srcCode (r : RefSrc) : Nat := match r with | .refpps => 1 | .partner => 2 | .manager => 3
/-- `REF_VALIDITY_TIMEOUT` (R410). -/
def execRefValidityTimeout (src : RefSrc) (s : State) : Host.Outcome State Fault Refusal :=
  finish (refLost (srcCode src) s)
/-- `vigil_limit` seconds of device time have passed in VIGIL (R416). -/
def vigilOver (s : State) : State :=
  match s.tim.state, s.tim.upTo (s.tim.vigilAt + max 1 s.tim.vigilLimit * nsPerSecond) with
  | .vigil, some t => enterFreeRun { s with tim := t }
  | _, _ => s
/-- `TIM_VIGIL_T` (R417): the seconds since entry into VIGIL. -/
def Tim.vigilT (t : Tim) : Nat := min 0xFFFF ((t.ns - t.vigilAt) / nsPerSecond)
/-- `VIGIL_LIMIT_EXPIRED` (R416). -/
def execVigilLimitExpired (s : State) : Host.Outcome State Fault Refusal :=
  finish (vigilOver s)
/-- `TIM_CTRL.set` (R418). -/
def timeSet (s : State) : State :=
  if !s.responds .tim then s
  else if s.tim.state = .unset then { s with tim := { s.tim with setWait := true } }
  else cfgReject 0 0x240038 s
/-- `TIM_MGR_SAMPLE` (R410). -/
def mgrSample (value : Word) (s : State) : State :=
  if s.responds .tim then
    timeSources { s with tim := { s.tim with
      mgrTheta := some ((signed 32 value.toNat : Int) : Rat), valid3 := true, mgrSeen := s.tim.elapsed } } else s
/-- `TIME_SET` (R418). -/
def execTimeSet (s : State) : Host.Outcome State Fault Refusal := finish (timeSet s)
/-- `MGR_SAMPLE_WRITE` (R410). -/
def execMgrSampleWrite (value : Word) (s : State) : Host.Outcome State Fault Refusal := finish (mgrSample value s)
/-- What a read of `TIM_NOW_LO` latches (R435). -/
def timLatch (s : State) : State :=
  if s.responds .tim then
    { s with tim := { s.tim with latchHi := BitVec.ofNat 32 (s.tim.ns / 2 ^ 32),
                                 latchFrac := BitVec.ofNat 16 (s.tim.sub / 2 ^ 16) } }
  else s
/-- `TIM_NOW_READ` (R435): the low half is returned, the rest latched from the same instant. -/
def execTimNowRead (s : State) : Host.Outcome State Fault Refusal :=
  finish (emit (.readReply (if s.responds .tim then BitVec.ofNat 32 s.tim.ns else 0)) (timLatch s))
/-- `TIM_PULSE.start` (R423). -/
def startPulse (s : State) : State :=
  if s.responds .tim && !s.tim.pulseStart then
    { s with tim := { s.tim with pulseStart := true, pulseFirst := (s.tim.ns + 500000000 + 999999999) / nsPerSecond } }
  else s
/-- `PULSE_START` (R423). -/
def execPulseStart (s : State) : Host.Outcome State Fault Refusal := finish (startPulse s)
/-- `TPULSE_RISE` (R423). -/
def execTpulseRise (s : State) : Host.Outcome State Fault Refusal := finish (pulseRise s)
/-- `TPULSE_FALL` (R426). -/
def execTpulseFall (s : State) : Host.Outcome State Fault Refusal :=
  finish (pulseFall s)

end Sys2Proof.Machine
end

