-- ==== Sys2Proof/Machine/EventRing.lean ====
section
/-! DEFINITION. Event rings, vectors and Bus Master Enable (R489 to R492, R495, R545). -/

namespace Sys2Proof.Machine

/-- Function `fn`'s event registers answer. -/
def State.evtOk (s : State) (fn : Nat) : Bool := s.responds .evt && (fn == 0 || s.crewRuns fn)
/-- Offset of an event register in the BAR its function uses. -/
def evtOffset (fn reg : Nat) : Nat := if fn = 0 then 0x2C0000 + reg else 0x300 + reg
/-- Size and base keep R489. -/
def EvRing.sizeOk (e : EvRing) : Bool := decide (4 ≤ e.sizeLog2) && decide (e.sizeLog2 ≤ 12) && aligned64 e.base
/-- Change the event ring of a function. -/
def updEvt (fn : Nat) (f : EvRing → EvRing) (s : State) : State := s.updCrew fn (fun c => { c with evt := f c.evt })

/-- `EVT_CTRL.enable` (R489, R495). -/
def evtEnableOp (fn : Nat) (s : State) : State :=
  let e := (s.crew fn).evt
  if !s.evtOk fn || e.enabled then s
  else if e.sizeOk then updEvt fn (fun e => { e with enabled := true, head := 0, tail := 0 }) s
  else cfgReject fn (evtOffset fn 0x18) s

/-- Records on their way wait in the backlog again, the newest beyond 64 being dropped (R490). -/
def EvRing.park (e : EvRing) : EvRing :=
  let all := e.queue ++ e.backlog
  { e with queue := [], backlog := all.take 64, lost := satAdd 0xFFFF e.lost (all.length - 64),
           lostFlag := e.lostFlag || decide (64 < all.length) }

/-- `EVT_CTRL.disable` (R495). -/
def evtDisableOp (fn : Nat) (s : State) : State :=
  if s.evtOk fn && (s.crew fn).evt.enabled then updEvt fn (fun e => { e.park with enabled := false }) s else s

/-- `EVT_HEAD` (R489, R495). -/
def evtHead (fn : Nat) (h : Word) (s : State) : State :=
  let e := (s.crew fn).evt
  if !s.evtOk fn || !e.enabled then s
  else if headOk h e.head e.tail e.sizeLog2 then updEvt fn (fun e => { e with head := h }) s
  else raise fn .ringIndexInvalid 255 (pairDetail 0 2) s

/-- The 16 bytes of an event record (Table 15.3). -/
def Event.bytes16 (x : Event) (phase lost : Bool) : List Byte :=
  leBytes 4 (x.name.code + bit phase * 0x10000 + bit lost * 0x20000 + x.trunk * 0x1000000)
    ++ leBytes 4 x.detail ++ leBytes 8 x.time

/-- The next event to be written, and the ring without it. -/
def EvRing.next (e : EvRing) : Option (Event × EvRing) :=
  match e.queue, e.backlog with
  | x :: q, _ => some (x, { e with queue := q })
  | [], x :: b => some (x, { e with backlog := b })
  | [], [] => none

/-- An event record may be written now, were the grant had (R490, R545). -/
def State.eventDue (s : State) (fn : Nat) : Bool :=
  let e := (s.crew fn).evt
  e.enabled && (s.crew fn).bme && decide (e.used < 2 ^ e.sizeLog2) && e.next.isSome

/-- A record is written to the ring under a grant of the completion writer's (Table 12.3), then its vector signalled (R490,
R491). -/
def evtWrite (fn : Nat) (s : State) : State :=
  let e := (s.crew fn).evt
  if !s.eventDue fn || !s.granted 2 33 then s
  else match e.next with
  | none => s
  | some (x, r) =>
    let a := e.base + BitVec.ofNat 64 (16 * (e.tail.toNat % 2 ^ e.sizeLog2))
    let s := emit (.hostWrite fn a (x.bytes16 (phaseOf e.tail e.sizeLog2) e.lostFlag)) (useGrant 2 s)
    signalVector fn e.vector (updEvt fn (fun _ => { r with tail := e.tail + 1, lostFlag := false }) s)

/-- The end of a holdoff, once its microseconds of device time have passed (R492). -/
def holdoffOver (fn v : Nat) (s : State) : State :=
  let x := (s.crew fn).vec v
  match x.holdEnd.bind s.tim.upTo with
  | none => s
  | some t =>
    let s := { s with tim := t }.updCrew fn (·.updVec v (fun x => { x with holdEnd := none }))
    if 0 < x.causes then sendVector fn v s else s

/-- A vector is unmasked: a pending message goes (R492). -/
def unmaskVector (fn v : Nat) (s : State) : State :=
  let x := (s.crew fn).vec v
  let s := s.updCrew fn (·.updVec v (fun x => { x with masked := false }))
  if x.pba then sendVector fn v s else s

/-- Bus Master Enable of a function that exists changes (R545): off, its requests and messages stand held and the events on
their way go to the backlog; on, what waits may be issued again in its order, and pending messages are sent.  While
configuration requests are answered with retry status the write does not take place (R89). -/
def setBme (fn : Nat) (on : Bool) (s : State) : State :=
  if s.crs || !s.fnExists fn || (s.crew fn).bme == on then s
  else if !on then s.updCrew fn (fun c => { c with bme := false, evt := c.evt.park })
  else
    let s := s.updCrew fn (fun c => { c with bme := true })
    (List.range 32).foldl (fun s v =>
      let x := (s.crew fn).vec v
      if x.pba && !x.masked then sendVector fn v s else s) s

/-- `EVT_ENABLE` (R489). -/
def execEvtEnable (fn : Fin 64) (s : State) : Host.Outcome State Fault Refusal := finish (evtEnableOp fn s)
/-- `EVT_DISABLE` (R495). -/
def execEvtDisable (fn : Fin 64) (s : State) : Host.Outcome State Fault Refusal := finish (evtDisableOp fn s)
/-- `EVT_HEAD_WRITE` (R489). -/
def execEvtHeadWrite (fn : Fin 64) (value : Word) (s : State) : Host.Outcome State Fault Refusal :=
  finish (evtHead fn value s)
/-- `EVENT_RECORD_WRITE` (R490). -/
def execEventRecordWrite (fn : Fin 64) (s : State) : Host.Outcome State Fault Refusal := finish (evtWrite fn s)
/-- `MSIX_HOLDOFF_EXPIRY` (R492). -/
def execMsixHoldoffExpiry (fn : Fin 64) (vec : Fin 32) (s : State) : Host.Outcome State Fault Refusal :=
  finish (holdoffOver fn vec s)
/-- `MSIX_VECTOR_UNMASK` (R492). -/
def execMsixVectorUnmask (fn : Fin 64) (vec : Fin 32) (s : State) : Host.Outcome State Fault Refusal :=
  finish (unmaskVector fn vec s)
/-- `BUS_MASTER_ENABLE_WRITE` (R545). -/
def execBusMasterEnableWrite (fn : Fin 64) (on : Bool) (s : State) : Host.Outcome State Fault Refusal :=
  finish (setBme fn on s)

end Sys2Proof.Machine
end

