-- ==== Sys2Proof/Machine/Arbiter.lean ====
section
/-! DEFINITION. The three arbiters (chapter 12). -/

namespace Sys2Proof.Machine

/-- Requesters of an arbiter. -/
def arbSize (a : Nat) : Nat := match a with | 0 => 12 | 1 => 32 | _ => 35
/-- The arbiter has requester `i`. -/
def arbHas (a i : Nat) : Bool := decide (i < arbSize a)

/-- Level of a requester at reset (Tables 12.2, 12.3); channel levels come from the image. -/
def State.arbLevel0 (s : State) (a i : Nat) : Nat :=
  match a with
  | 0 => if i ≤ 7 then 3 else if i ≤ 9 then 1 else if i = 10 then 0 else 2
  | 1 => (s.chImg i).level
  | _ => if i ≤ 31 then (s.chImg i).level else if i = 32 then 2 else if i = 33 then 3 else 0
/-- Burst of a requester at reset (Table 12.4). -/
def arbBurst0 (a i : Nat) : Nat :=
  match a with
  | 0 => if i = 9 then 1 else if i = 11 then 16 else 4
  | 1 => 8
  | _ => 4
/-- The level is read-only, taken from the image (Tables 12.2, 12.3). -/
def arbLevelRo (a i : Nat) : Bool := a == 1 || (a == 2 && decide (i ≤ 31))

/-- Requester `i` of arbiter `a`; one never written stands at its reset values. -/
def State.arbReq (s : State) (a i : Nat) : ArbReq :=
  match Keyed.find (s.arb a).reqs i with
  | some r => if arbLevelRo a i then { r with level := s.arbLevel0 a i } else r
  | none => { level := s.arbLevel0 a i, burst := arbBurst0 a i }
/-- Change requester `i`. -/
def updArbReq (a i : Nat) (f : ArbReq → ArbReq) (s : State) : State :=
  s.updArb a (fun b => { b with reqs := Keyed.insert i (f (s.arbReq a i)) b.reqs })

/-- Burst in force: 0 reads as 1 (R404). -/
def ArbReq.units (r : ArbReq) : Nat := max 1 r.burst
/-- `starve_limit` in force (R404). -/
def Arb.starveLimit (b : Arb) : Nat := max 16 b.starve
/-- `hold_limit` in force (R404). -/
def Arb.holdLimit (b : Arb) : Nat := max 8 b.hold
/-- Bank that keys pointers and tenures: banks exist on arbiter 0 only. -/
def arbBank (a bank : Nat) : Nat := if a = 0 then bank else 0

/-- The level of a requester now (R405). -/
def State.arbLevel (s : State) (a i : Nat) : Nat := (s.arbReq a i).level
/-- A tenure ends: its level's pointer moves one past the holder (R398). -/
def endTenure (a bank : Nat) (t : Tenure) (s : State) : State :=
  s.updArb a (fun b => { b with ptr := Tab.put 0 (bank * 4 + s.arbLevel a t.req) ((t.req + 1) % arbSize a) b.ptr })
/-- Set or clear the holder of a bank. -/
def setHolder (a bank : Nat) (t : Option Tenure) (s : State) : State :=
  s.updArb a (fun b => { b with holder := match t with
    | some t => Keyed.insert bank t b.holder | none => Keyed.erase bank b.holder })

/-- Zeroing of one 16-byte part of a released cell of a bank; the fourth makes the cell free (R370). -/
def zeroPart (bank : Nat) (s : State) : State :=
  match s.cells.table.find? (fun c => c.1 % 4 == bank && decide (0 < c.2.zero)) with
  | none => s
  | some (i, c) =>
    let t := s.cells.table
    let t := if c.zero ≤ 1 then Keyed.erase i t else Keyed.insert i { c with zero := c.zero - 1 } t
    { s with cells := { s.cells with table := t } }

/-! The host-request arbiter's units (Table 12.3). -/

/-- A request is issued. -/
def issueHost (q : HostReq) (s : State) : State :=
  let s := { s with pci := { s.pci with queue := s.pci.queue.erase q } }
  match q.body with
  | .write a b back =>
    let s := emit (.hostWrite q.fn a b) s
    match back with | some irq => backDone q.req irq s | none => s
  | .read r => sendRead r s
  | .msix v => issueMessage q.fn v s
/-- The next request of requester `i`: of those that wait, else of the transfer its channel serves. -/
def hostUnit (i : Nat) (s : State) : State :=
  match s.nextHost i with
  | some q => if s.hostOk q then issueHost q s else s
  | none => if i ≤ 31 then chRequest i s else s
/-- A record of some ring or channel may be written now, were the grant had (Table 12.3). -/
def State.someRecord (s : State) : Bool :=
  s.crews.any (fun c => (List.range 8).any (s.recordDue c.1) || s.eventDue c.1)
    || s.chs.any (fun h => s.streamDue h.1 && !h.2.cqFull)
/-- Requester `i` has a request to issue (R394). -/
def State.hostCan (s : State) (i : Nat) : Bool :=
  match s.nextHost i with
  | some q => s.hostOk q
  | none => (decide (i ≤ 31) && s.requestCan i) || (i == 33 && s.someRecord)
/-- A requester can use a unit at once (R394), as far as this model's state tells: the line ports' accesses, the pops and the
sweep lie within the commands that make them (log 65). -/
def State.canUse (s : State) (a bank i : Nat) : Bool :=
  match a with
  | 0 => i != 10 || s.cells.table.any (fun c => c.1 % 4 == bank && decide (0 < c.2.zero))
  | 1 => if s.isStream i then s.streamWants i else s.beatCan i
  | _ => s.hostCan i

/-- What a unit of requester `i` does (R393): a zeroing access, a work-ring channel's beat, the issue of a request. -/
def arbUnit (a bank i : Nat) (s : State) : State :=
  match a with
  | 0 => if i = 10 then zeroPart bank s else s
  | 1 => chBeat i s
  | _ => hostUnit i s

/-- A holder that completed no unit in the cycle: one that has reached `hold_limit` is to be cut off, and its tenure ends
(R400); one that has withdrawn ends its tenure (R397). -/
def idleCycle (a bank : Nat) (t : Tenure) (still : Bool) (s : State) : State :=
  if (s.arb a).holdLimit ≤ t.idle + 1 then
    updArbReq a t.req (fun r => { r with cutDue := true }) (setHolder a bank none (endTenure a bank t s))
  else if still then setHolder a bank (some { t with idle := t.idle + 1 }) s
  else setHolder a bank none (endTenure a bank t s)

/-- The highest level among a list of requesters. -/
def State.topLevel (s : State) (a : Nat) (l : List Nat) : Nat := (l.map (s.arbLevel a)).foldl max 0

/-- A holder's unit is done, which may use up its burst (R398). -/
def unitCycle (a bank : Nat) (t : Tenure) (s : State) : State :=
  let s := updArbReq a t.req (fun r => { r with grants := satAdd 0xFFFFFFFF r.grants 1 }) s
  let t := { t with left := t.left - 1, idle := 0, used := false }
  if t.left = 0 then setHolder a bank none (endTenure a bank t s) else setHolder a bank (some t) s

/-- A higher level suspends the holder at a unit boundary (R399). -/
def preempt (a bank : Nat) (seen : List Nat) (done : Bool) (s : State) : State :=
  match Keyed.find (s.arb a).holder bank with
  | none => s
  | some t =>
    if s.arbLevel a t.req < s.topLevel a seen ∧ (a ≠ 2 ∨ done) then
      (setHolder a bank none s).updArb a (fun b => { b with suspended := b.suspended ++ [(bank, t)] })
    else s

/-- The holder's cycle (R397 to R400, R407): a unit it used, or that it completes now, counts; a request withdrawn in the
last cycle makes the grant a null grant. -/
def holderCycle (a bank : Nat) (seen : List Nat) (unitDone : Bool) (s : State) : State :=
  match Keyed.find (s.arb a).holder bank with
  | none => s
  | some t =>
    if t.used then preempt a bank seen true (unitCycle a bank t s)
    else if seen.contains t.req && unitDone && s.canUse a bank t.req then
      preempt a bank seen true (unitCycle a bank t (arbUnit a bank t.req s))
    else preempt a bank seen false (idleCycle a bank t (seen.contains t.req) s)

/-- The first requester at or after a pointer, wrapping (R396). -/
def firstFrom (n p : Nat) (l : List Nat) : Option Nat := ((List.range n).map (fun i => (p + i) % n)).find? l.contains

/-- Suspended holders that have withdrawn end their tenures (R399). -/
def dropWithdrawn (a bank : Nat) (seen : List Nat) (s : State) : State :=
  ((s.arb a).suspended.filter (fun t => t.1 == bank && !seen.contains t.2.req)).foldl
    (fun s t => (endTenure a bank t.2 s).updArb a (fun b => { b with suspended := b.suspended.filter (· ≠ t) })) s

/-- Choose where no tenure holds: a suspended tenure of the top level resumes, else the rotation decides
(R396, R398, R399). -/
def chooseWinner (a bank : Nat) (seen : List Nat) (s : State) : State :=
  match Keyed.find (s.arb a).holder bank with
  | some _ => s
  | none =>
    let top := s.topLevel a seen
    match (s.arb a).suspended.find? (fun t => t.1 == bank && s.arbLevel a t.2.req == top) with
    | some t => setHolder a bank (some { t.2 with idle := 0 })
        (s.updArb a (fun b => { b with suspended := b.suspended.filter (· ≠ t) }))
    | none =>
      match firstFrom (arbSize a) (Tab.get 0 (s.arb a).ptr (bank * 4 + top))
          (seen.filter (fun i => s.arbLevel a i == top)) with
      | none => s
      | some w => setHolder a bank (some { req := w, left := (s.arbReq a w).units }) s

/-- Decisions that have seen each requester without a grant (R403); a grant or a withdrawal ends the run. -/
def countWaits (a bank : Nat) (seen : List Nat) (s : State) : State :=
  let holder := (Keyed.find (s.arb a).holder bank).map (·.req)
  (List.range (arbSize a)).foldl (fun s i =>
    if holder = some i then
      if (s.arbReq a i).waits.isEmpty && !(s.arbReq a i).starvedTold then s
      else updArbReq a i (fun r => { r with waits := Tab.put 0 bank 0 r.waits, starvedTold := false }) s
    else if seen.contains i then updArbReq a i (fun r => { r with waits := Tab.upd 0 bank (· + 1) r.waits }) s
    else if Tab.get 0 (s.arbReq a i).waits bank = 0 then s
    else updArbReq a i (fun r => { r with waits := Tab.put 0 bank 0 r.waits }) s) s

/-- A corrected ECC error of the cell bank accessed in the cycle is counted (R389). -/
def countCorr (a bank : Nat) (corr : Bool) (s : State) : State :=
  if corr && a == 0 then { s with cells := { s.cells with corr := Tab.upd 0 bank (satAdd 0xFFFF · 1) s.cells.corr } } else s

/-- The requests at the end of a cycle, which the decision of the next cycle sees (R395). -/
def setSeen (a bank : Nat) (reqs : List Nat) (s : State) : State :=
  s.updArb a (fun b => { b with seen := Tab.put [] bank (reqs.filter (fun i => arbHas a i && s.canUse a bank i)) b.seen })

/-- One cycle of an arbiter, of one bank on arbiter 0: the holder's unit, then the decision for the next cycle, on the
requests that stood at the end of the last one (R395); `reqs` are the requests raised by the end of this cycle, of which those
stand that can use a unit at once (R394). -/
def arbCycle (a bank : Nat) (reqs : List Nat) (unitDone corr : Bool) (s : State) : State :=
  let bank := arbBank a bank
  let seen := (Tab.get [] (s.arb a).seen bank).filter (fun i => !s.masked a i)
  let s := holderCycle a bank seen unitDone (countCorr a bank corr s)
  let seen := seen.filter (fun i => !s.masked a i)
  let s := countWaits a bank seen (chooseWinner a bank seen (dropWithdrawn a bank seen s))
  setSeen a bank reqs { s with pci := { s.pci with tagWaited := s.pci.tagWaited || (a == 2 && s.tagShort) } }

/-- `ARB_DECISION` (R395). -/
def execArbDecision (arb : Fin 3) (bank : Fin 4) (reqs : List Nat) (fin : CycleEnd) (s : State) :
    Host.Outcome State Fault Refusal :=
  finish (arbCycle arb bank reqs fin.unitDone fin.corr s)

/-- The requester that has overstayed is cut off and masked (R400). -/
def cutHolder (a : Nat) (s : State) : State :=
  match (s.arb a).reqs.find? (·.2.cutDue) with
  | none => s
  | some (i, _) => raiseM .arbHolderCut (pairDetail a i) (updArbReq a i (fun r => { r with cut := true, cutDue := false }) s)

/-- `ARB_HOLDER_CUT` (R400): a holder idle for `hold_limit` cycles is cut off and masked. -/
def execArbHolderCut (arb : Fin 3) (_bank : Fin 4) (s : State) : Host.Outcome State Fault Refusal :=
  finish (cutHolder arb s)

/-- `ARB_STARVED` (R403). -/
def execArbStarved (arb : Fin 3) (req : Nat) (s : State) : Host.Outcome State Fault Refusal :=
  let r := s.arbReq arb req
  finish (if arbHas arb req && !r.starvedTold && r.waits.any (fun w => decide ((s.arb arb).starveLimit ≤ w.2)) then
      raiseM .arbStarved (pairDetail arb req)
        (updArbReq arb req (fun r => { r with starved := true, starvedTold := true }) s)
    else s)

/-- `ARB_CUT_CLEAR` (R402). -/
def execArbCutClear (arb : Fin 3) (req : Nat) (s : State) : Host.Outcome State Fault Refusal :=
  finish (if s.responds .arb && arbHas arb req && (s.arbReq arb req).cut then
      updArbReq arb req (fun r => { r with cut := false }) s
    else s)

/-- What a read of `ARB_GRANTS[i]` clears (R407, R503). -/
def grantsClear (a i : Nat) (s : State) : State :=
  if s.responds .arb && arbHas a i then updArbReq a i (fun r => { r with grants := 0 }) s else s
/-- `ARB_GRANTS_READ` (R407, R503): the count is returned, then cleared. -/
def execArbGrantsRead (arb : Fin 3) (req : Nat) (s : State) : Host.Outcome State Fault Refusal :=
  finish (emit (.readReply (if s.responds .arb && arbHas arb req then BitVec.ofNat 32 (s.arbReq arb req).grants else 0))
    (grantsClear arb req s))

/-- What a read of `DMA_TAGS` restarts (R503): peak, from the tags held. -/
def tagsRestart (s : State) : State :=
  if s.responds .dma then { s with pci := { s.pci with tagPeak := s.pci.tags.length } } else s
/-- `DMA_TAGS_READ` (R503): busy in [6:0], peak in [22:16]. -/
def execDmaTagsRead (s : State) : Host.Outcome State Fault Refusal :=
  finish (emit (.readReply (if s.responds .dma then BitVec.ofNat 32 (s.pci.tags.length + s.pci.tagPeak * 0x10000) else 0))
    (tagsRestart s))

end Sys2Proof.Machine
end

