-- ==== Sys2Proof/Machine/Line.lean ====
section
/-! DEFINITION. Line ports: start and stop, lock, faults, rate changes, parked ports, and the counters of the
segments (R176 to R183, R190, R191, R441, R476 to R479). -/

namespace Sys2Proof.Machine

/-- Offset of a register of trunk `n`'s block. -/
def trkOffset (n reg : Nat) : Nat := 0x40000 + n * 0x1000 + reg

/-! Counters (R477 to R479): the segment entering the hub at hop index `j`. -/

/-- The counter of the segment entering hop index `j`. -/
def State.seg (s : State) (n j : Nat) : Nat :=
  if j ≤ 1 then (s.trk n).tec else ((s.trk n).hub (s.hubAt n (j - 1))).lec
/-- Set the counter of a segment: a warning is raised at 96 from below and armed again below 64 (R478). -/
def setSeg (n j v : Nat) (s : State) : State :=
  if j ≤ 1 then
    let told := (s.trk n).tecWarn
    let warn := decide (64 ≤ v) && (told || decide (96 ≤ v))
    let s := s.updTrk n (fun t => { t with tec := v, tecWarn := warn })
    if warn && !told then raise 0 .lineTecWarn n 0 s else s
  else
    let p := s.hubAt n (j - 1)
    let told := ((s.trk n).hub p).warn
    let warn := decide (64 ≤ v) && (told || decide (96 ≤ v))
    let s := s.updTrk n (·.updHub p (fun h => { h with lec := v, warn := warn }))
    if warn && !told then raise 0 .lineLecWarn n (pairDetail p 0) s else s

/-! Epochs and claims (R451, R452, R474). -/

/-- `e` is newer than `s` by the window of R197. -/
def epochNewer (e s : Nat) : Bool := decide (1 ≤ (e + 256 - s % 256) % 256) && decide ((e + 256 - s % 256) % 256 ≤ 127)
/-- Take a newer epoch (R451); one is taken in any case where none is valid. -/
def takeEpoch (e : Nat) (s : State) : State :=
  if !s.tdm.epochValid || epochNewer e s.tdm.epoch then
    { s with tdm := { s.tdm with epoch := e % 256, epochValid := true } }
  else s
/-- Trunk `n` is claimed at the next boundary (R452). -/
def claimNext (n : Nat) (s : State) : State := s.updTrk n (fun t => { t with claimAt := some (s.frame + 1) })

/-! Starting and stopping (R177 to R180, R474). -/

/-- A bow becomes active at its first start of a pair-fed trunk (R474). -/
def State.firstStart (s : State) (n : Nat) : Bool :=
  s.pairFed n && !s.tdm.active && s.straps.role && s.tdm.enable && decide (3 ≤ s.tdm.hbClear)

/-- `TRK_CTRL.start` (R177). -/
def lineStart (n : Nat) (s : State) : State :=
  if !s.responds (.trk n) || !s.exists? n || (s.trk n).state ≠ .stopped then s
  else
    let s := s.updTrk n (fun t => { t with state := .starting, startWait := true, lpwr := true, rateEff := t.rate,
                                           polTold := false, polInv := false, stopReq := false })
    if s.firstStart n then
      if s.tdm.epochValid then { s with tdm := { s.tdm with active := true, fenceOut := true, fenceHold := true } }
      else cfgReject 0 (trkOffset n 4) s
    else s


/-- The check of `LFAULT_N` and what follows (R177).  The trunk's first frame begins at the next boundary (R42, R232;
log 58). -/
def powerCheck (n : Nat) (high : Bool) (s : State) : State :=
  if !(s.trk n).startWait then s
  else if !high || !s.pins.vddio33Ok then
    raise 0 .lineFault n 0 (s.updTrk n (fun t => { t with startWait := false, state := .stopped, lpwr := false,
                                                          lfault := !high }))
  else
    let drive := !s.pairFed n || s.tdm.active
    let s := s.updTrk n (fun t =>
      { t with startWait := false, lfault := false, urxen := true, dtxen := drive && !(s.pairFed n && s.gated),
               state := if drive then .running else .parked, headIdle := false, part := 3 })
    let s := if drive then emit (.signal n .idle) s else s
    let s := if s.pairFed n && drive then claimNext n s else s
    raise 0 .lineStarted n 0 s

/-- `TRK_CTRL.stop` (R179). -/
def lineStop (n : Nat) (s : State) : State :=
  let t := s.trk n
  if !s.responds (.trk n) || t.state = .stopped then s
  else if t.quiesced then s.updTrk n (fun t => { t with stopReq := true })
  else cfgReject 0 (trkOffset n 4) s

/-- The controller's own requests on trunk `n` are given up. -/
def dropCtl (n : Nat) (s : State) : State :=
  { s with xfers := s.xfers.filter (fun x => !(x.2.trunk == n && (match x.2.origin with | .ctl _ => true | _ => false))) }

/-- A trunk stops at a boundary (R179): its attaches, sleep scopes and walk end with it. -/
def stopNow (n : Nat) (s : State) : State :=
  let awake : Hub → Hub := fun h => { h with far := .awake, ports := [], holder := false, sealed := false }
  let s := dropCtl n (endSleepCmd n stPruned (dropAttaches n stPruned (fun _ _ => true) s))
  raise 0 .lineStopped n 0 (emit (.signal n .electricalIdle) (s.updTrk n (fun t =>
    { t.rateOver with
             state := .stopped, stopReq := false, startWait := false, dtxen := false, urxen := false, lock := false,
             tailLock := false, tryRate := none, rateReq := false, quarantined := false, quarIdle := false,
             clean := 0, walk := none, unreach := 0, pruneAt := none, unacted := [], headIdle := false, sleep := .awake, part := 0, claimAt := none, claiming := false,
             claimFrame := false, claimConfirm := false, mode := .whole, slots := [], exhausted := [], resv := [],
             exchanges := [], hubs := t.hubs.foldl (fun h p => Tab.upd {} p.1 awake h) t.hubs })))

/-! Lock and faults (R146, R190, R191, R473). -/

/-- Lock is lost (R190); a parked port tries the rates in turn (R183). -/
def lockLost (n : Nat) (s : State) : State :=
  let t := s.trk n
  if !t.lock then s
  else
    let s := s.updTrk n (fun t => { t with lock := false, tailLock := false,
                                           tryRate := if t.state = .parked then some 0 else t.tryRate })
    match t.state with
    | .running => raise 0 .lineLockLost n 0 s
    | .parked => raise 0 .tdmTailDown n 0 (raise 0 .lineLockLost n 0 s)
    | _ => s

/-- Lock is found (R190); an inverted pair is corrected, told once per start (R146). -/
def lockFound (n : Nat) (inverted : Bool) (s : State) : State :=
  let t := s.trk n
  if !t.urxen then s
  else
    let rate := t.tryRate.getD t.rateEff
    let parked := t.state == .parked
    let s := s.updTrk n (fun t =>
      { t with lock := true, polInv := inverted, polTold := t.polTold || inverted, tailLock := parked, tryRate := none,
               rateEff := if parked then rate else t.rateEff, rate := if parked then rate else t.rate })
    if inverted && !t.polTold then raise 0 .linePolarityInverted n 0 s else s

/-- `LFAULT_N` low for 10 us (R191). -/
def lineFaultOp (n : Nat) (s : State) : State :=
  let t := s.trk n
  if t.state = .stopped ∨ t.state = .starting then s.updTrk n (fun t => { t with lfault := true })
  else
    let s := s.updTrk n (fun t => { t.rateOver with lfault := true, dtxen := false, quarIdle := false, rateReq := false })
    raise 0 .lineFault n 0 (quarantine n (setSeg n 1 255 s))

/-- `LFAULT_N` high for 1 ms (R191): a port that may drive its trunk sends IDLE again (R29). -/
def lfaultOver (n : Nat) (s : State) : State :=
  let t := s.trk n
  if !t.lfault || !s.pins.vddio33Ok then s
  else
    let s := s.updTrk n (fun t => { t with lfault := false })
    if t.quarantined && s.mayDrive n then
      emit (.signal n .idle) (s.updTrk n (fun t => { t with dtxen := true, quarIdle := true })) else s

/-! Changing the rate (R181 to R183). -/

/-- `TRK_CTRL.rate_chg`; where no change may begin it is ignored (DESIGN CHOICE, log 74). -/
def rateChange (n : Nat) (s : State) : State :=
  let t := s.trk n
  if !s.responds (.trk n) then s
  else if s.pairFed n && !s.tdm.active then cfgReject 0 (trkOffset n 4) s
  else if t.rate = t.rateEff ∨ t.state ≠ .running ∨ !t.quiesced ∨ t.quarantined then s
  else s.updTrk n (fun t => { t with rateReq := true })

/-- The highest hop index to be confirmed: the deepest addressed hub. -/
def State.deepest (s : State) (n : Nat) : Nat := ((s.hubsUp n).map (s.hopOf n)).foldl max 0

/-- The electrical idle ends and IDLE resumes at the new rate (Table 5.13). -/
def rateResume (n : Nat) (s : State) : State :=
  match (s.trk n).rateChg with
  | none => s
  | some c => if c.electricalIdle && !c.resumed then
      emit (.signal n .idle) (s.updTrk n (fun t => { t with
        dtxen := s.mayDrive n, rateChg := some { c with resumed := true } })) else s

/-- Every hub has confirmed (Table 5.13). -/
def rateDone (n : Nat) (s : State) : State :=
  raise 0 .lineRateChanged n 0 (s.updTrk n (fun t =>
    { t with rateEff := t.rate, rateChg := t.rateChg.map (fun c => { c with done := true }) }))

/-- The confirmation ends at hop index `k` (R182): quarantine for the first hub, otherwise a prune. -/
def rateFail (n : Nat) (s : State) : State :=
  match (s.trk n).rateChg with
  | none => s
  | some c =>
    if !c.resumed || c.done || decide (c.tries < 3 ∧ s.frame < c.start + 16) then s
    else
      let k := c.hop
      let s := raise 0 .lineRateIncomplete n k s
      if k ≤ 1 then quarantine n s
      else pruneFar n (s.hubAt n (k - 1)) (s.updTrk n (fun t =>
        { t with rateEff := t.rate, rateChg := some { c with done := true } }))

/-! Parked ports (R178, R183, R441). -/

/-- Three frames in a row have given the same position of the tail anchor (R441). -/
def learnTail (n hop : Nat) (s : State) : State :=
  let t := s.trk n
  if hop = 0 ∨ 64 < hop then s.updTrk n (fun t => { t with tailRun := 0 })
  else
    let run := if t.tailCand = hop then t.tailRun + 1 else 1
    let s := s.updTrk n (fun t => { t with tailCand := hop, tailRun := run })
    if 3 ≤ run ∧ (!t.tailLearnt ∨ t.tailN ≠ hop) then
      replaceTails n (s.updTrk n (fun t => { t with tailN := hop, tailLearnt := true }))
    else s

/-- A good SOF reaches the parked port (R441, R451). -/
def parkedSof (n hop epoch : Nat) (s : State) : State :=
  if (s.trk n).state ≠ .parked ∨ !s.pairFed n then s
  else takeEpoch (epoch % 256) (learnTail n hop (s.updTrk n (fun t => { t with parkedHop := hop % 128 })))

/-- `TRK_START` (R177). -/
def execTrkStart (trunk : Fin 8) (s : State) : Host.Outcome State Fault Refusal := finish (lineStart trunk s)
/-- `LINE_POWER_CHECK` (R177). -/
def execLinePowerCheck (trunk : Fin 8) (lfaultHigh : Bool) (s : State) : Host.Outcome State Fault Refusal :=
  finish (powerCheck trunk lfaultHigh s)
/-- `TRK_STOP` (R179). -/
def execTrkStop (trunk : Fin 8) (s : State) : Host.Outcome State Fault Refusal := finish (lineStop trunk s)
/-- `TRK_RATE_CHG` (R181). -/
def execTrkRateChg (trunk : Fin 8) (s : State) : Host.Outcome State Fault Refusal := finish (rateChange trunk s)
/-- `TRK_CLR_STAT` (R193). -/
def clrStat (n : Nat) (s : State) : State :=
  if s.responds (.trk n) then
    s.updTrk n (fun t => { t with crcErr := 0, framingErr := 0, timeouts := 0, resyncs := 0 }) else s
/-- `TRK_CLR_STAT` (R193). -/
def execTrkClrStat (trunk : Fin 8) (s : State) : Host.Outcome State Fault Refusal := finish (clrStat trunk s)
/-- `RATE_IDLE_RESUME` (R181). -/
def execRateIdleResume (trunk : Fin 8) (s : State) : Host.Outcome State Fault Refusal := finish (rateResume trunk s)
/-- `RATE_CONFIRM_TIMEOUT` (R182). -/
def execRateConfirmTimeout (trunk : Fin 8) (s : State) : Host.Outcome State Fault Refusal := finish (rateFail trunk s)
/-- `LINE_LOCK_LOST` (R190). -/
def execLineLockLost (trunk : Fin 8) (s : State) : Host.Outcome State Fault Refusal := finish (lockLost trunk s)
/-- `LINE_LOCK` (R190). -/
def execLineLock (trunk : Fin 8) (inverted : Bool) (s : State) : Host.Outcome State Fault Refusal :=
  finish (lockFound trunk inverted s)
/-- `LINE_FAULT` (R191). -/
def execLineFault (trunk : Fin 8) (s : State) : Host.Outcome State Fault Refusal := finish (lineFaultOp trunk s)
/-- `LFAULT_RECOVERED` (R191). -/
def execLfaultRecovered (trunk : Fin 8) (s : State) : Host.Outcome State Fault Refusal := finish (lfaultOver trunk s)
/-- `PARKED_PORT_SOF` (R441). -/
def execParkedPortSof (trunk : Fin 8) (hop epoch : Nat) (s : State) : Host.Outcome State Fault Refusal :=
  finish (parkedSof trunk hop epoch s)
/-- `PARKED_PORT_LRATE` (R183): the receiver switches at the idle that follows. -/
def execParkedPortLrate (trunk : Fin 8) (rate : Nat) (s : State) : Host.Outcome State Fault Refusal :=
  finish (if (s.trk trunk).state = .parked ∧ rate < 3 then
      s.updTrk trunk (fun t => { t with rateEff := rate, rate := rate }) else s)
/-- `PARKED_PORT_RATE_TRY_EXPIRY` (R183). -/
def execParkedPortRateTryExpiry (trunk : Fin 8) (s : State) : Host.Outcome State Fault Refusal :=
  finish (s.updTrk trunk (fun t => { t with tryRate := t.tryRate.map (fun r => (r + 1) % 3) }))
/-- Every running line port acts as if its `LFAULT_N` were low (R539). -/
def allFault (s : State) : State :=
  (List.range 8).foldl (fun s n => if (s.trk n).state = .stopped then s else lineFaultOp n s) s

end Sys2Proof.Machine
end

