-- ==== Sys2Proof/Machine/Attach.lean ====
section
/-! DEFINITION. Attach, detach and the roster (R207 to R215, R204, R260, R261, R281). -/

namespace Sys2Proof.Machine

/-! Requests to the side a node sits behind. -/

/-- A hub request, or at once `OK` for the line port's stand-in. -/
def portRequest (n h port : Nat) (use : CtlUse) (code : Nat) (s : State) : State :=
  if h = 0 then ctlAnswer use stOk [] s else hubRequest n h use code port 0 s
/-- `PORT_DISABLE` to the side a node sits behind. -/
def portOff (n h port : Nat) (s : State) : State := portRequest n h port (.portOff n h port) 0x02 s
/-- Raise a roster event naming a position (Table 15.4). -/
def rosEvent (name : EventName) (n : Nat) (pos : Nat × Nat) (s : State) : State :=
  raise 0 name n (pairDetail pos.1 pos.2) s

/-! Detaching (R214). -/

/-- Every context of a node goes back (R213, R226). -/
def freeNode (n addr : Nat) (s : State) : State :=
  s.ctxs.foldl (fun s c =>
    if c.2.used && c.2.trunk == n && c.2.addr == addr then
      freeCtx c.1 (match c.2.port with | some p => closePort c.2.owner p s | none => s)
    else s) s

/-- What the controller holds about a hub ends with it: its prune, seal and sleep scopes, and a port request it has yet
to act on. -/
def forgetHub (n p : Nat) (s : State) : State :=
  let addr := (s.entryAt n p 0).map (·.2.addr)
  s.updTrk n (fun t =>
    { t.updHub p (fun h => { h with pruned := false, clean := 0, sealed := false, far := .awake, ports := [], holder := false }) with
      unacted := t.unacted.filter (fun u => some u.1 ≠ addr) })

/-- The node at a position detaches (R214): with a hub go its ports and every node behind its far side. -/
def detachNode (n p q : Nat) (s : State) : State :=
  let mine : Nat × Entry → Bool := fun e => e.2.trunk == n && e.2.attached &&
    (if q = 0 then decide (s.hopOf n p ≤ s.hopOf n e.2.hub) else e.2.hub == p && e.2.port == q)
  let all := s.ros.entries.filter mine
  let deep := s.hopOf n p
  let s := all.foldl (fun s e => rosEvent .nodeDetached n (e.2.hub, e.2.port) (detachEntry e.1 stPruned false s)) s
  if q ≠ 0 then s
  else
    let s := (s.trk n).hubs.foldl (fun s h => if deep ≤ s.hopOf n h.1 then forgetHub n h.1 s else s) s
    let s := dropAttaches n stPruned (fun h _ => h ≠ 0 && decide (deep ≤ s.hopOf n h)) s
    match s.ros.run with
    | some r => if r.trunk = n ∧ r.hub ≠ 0 ∧ deep ≤ s.hopOf n r.hub then endSleepCmd n stPruned s else s
    | none => s

/-! Starting an attach (R207, R208). -/

/-- The record of a position waits for its held slot to be settled (Table 6.13). -/
def State.heldAt (s : State) (n : Nat) (pos : Nat × Nat) : Bool :=
  s.ros.held.any (fun h => h.2.trunk == n && h.2.hub == pos.1 && h.2.port == pos.2)
/-- A waiting record may be handled. -/
def State.attachable (s : State) (n : Nat) (x : Nat × Nat) : Bool := !s.heldAt n (s.behind n x.1 x.2)
/-- Queue an `ATTACH` record in the order received. -/
def queueAttach (n h port : Nat) (s : State) : State :=
  s.updTrk n (fun t => { t with again := t.again.filter (fun x => !(x.1 == h && x.2.1 == port)),
                                attachQ := if t.attachQ.contains (h, port) then t.attachQ else t.attachQ ++ [(h, port)] })
/-- A standard request (Table 5.10). -/
def stdReq (code : Nat) (isIn : Bool) (value index len : Nat) : List Byte := mkSetup code isIn 0 value index len

/-- The request of a step of R208: the port is enabled; the node, at address 0, is asked what it is and given its
address; then, at its own, its configuration, its wake flag and its hub's wake mask. -/
def attachReq (n step : Nat) (s : State) : State :=
  match (s.trk n).attach with
  | none => s
  | some a =>
    let hub := (s.behind n a.hub a.port).1
    let ask := fun (addr : Nat) (setup dataOut : List Byte) (s : State) => startCtl n addr hub (.attach n) setup dataOut s
    let on := fun (r : Option Nat) => s.updTrk n (fun t => { t with attach := some { a with step := step, result := r, retryNext := false } })
    match step with
    | 0 => portRequest n a.hub a.port (.attach n) 0x01 (on none)
    | 1 => ask 0 (stdReq 0x01 true 0 0 32) [] (on none)
    | 2 => ask 0 (stdReq 0x02 true 0 0 64) [] (on none)
    | k => match a.entry.bind s.entry with
      | none => on (some stNotExecuted)
      | some e => match k with
        | 3 => ask 0 (stdReq 0x03 false e.addr 0 0) [] (on none)
        | 4 => ask e.addr (stdReq 0x05 false 0 0 16) e.config (on none)
        | 5 => ask e.addr (stdReq 0x09 false 1 0 0) [] (on none)
        | _ => hubRequest n e.hub (.attach n) 0x08 e.port 1 (on none)

/-- `ATTACH_START` (R208): a position out of range is disabled; a node held attached is first detached. -/
def attachStart (n : Nat) (s : State) : State :=
  let t := s.trk n
  if t.state ≠ .running ∨ t.quarantined ∨ t.attach.isSome then s
  else match t.attachQ.find? (s.attachable n) with
  | none => s
  | some (h, port) =>
    let s := s.updTrk n (fun t => { t with attachQ := t.attachQ.filter (· ≠ (h, port)) })
    let pos := s.behind n h port
    if pos.1 = 0 ∨ 64 < pos.1 then rosDoneAt n pos stNotExecuted (rosEvent .nodeAttachFailed n pos (portOff n h port s))
    else
      let s := match s.entryAt n pos.1 pos.2 with
        | some (_, e) => if e.attached then detachNode n pos.1 pos.2 s else s
        | none => s
      attachReq n 0 (s.updTrk n (fun t => { t with attach := some { hub := h, port := port } }))

/-! Its steps. -/

/-- The attach under way ends. -/
def attachEnd (n st : Nat) (s : State) : State :=
  match (s.trk n).attach with
  | none => s
  | some a => rosDoneAt n (s.behind n a.hub a.port) st (s.updTrk n (fun t => { t with attach := none }))

/-- An outcome of Table 6.6 that leaves the port disabled. -/
def attachOff (n : Nat) (name : EventName) (again : Option AgainFor) (s : State) : State :=
  match (s.trk n).attach with
  | none => s
  | some a =>
    let s := rosEvent name n (s.behind n a.hub a.port) (portOff n a.hub a.port s)
    let s := match again with
      | some w => s.updTrk n (fun t => { t with again := t.again ++ [(a.hub, a.port, w)] })
      | none => s
    attachEnd n stNotExecuted s

/-- A step ended with a failure status (R210): it is tried again in the next frame, or this is the third failure. -/
def attachFail (n : Nat) (s : State) : State :=
  s.updTrk n (fun t => { t with attach := t.attach.map (fun a =>
    { a with tries := a.tries + 1, result := none, failed := decide (3 ≤ a.tries + 1), retryNext := decide (a.tries + 1 < 3),
             lastFail := a.result.getD a.lastFail }) })

/-- The identity fields of R62: every field but serial. -/
def sameIdentity (a b : List Byte) : Bool := slice a 0 16 == slice b 0 16 && slice a 24 8 == slice b 24 8

/-- The node is at its address: its event goes out, seeded contexts are granted (R62, R281). -/
def attachFinish (n : Nat) (s : State) : State :=
  match (s.trk n).attach with
  | none => s
  | some a =>
    let s := match a.entry with
      | none => s
      | some i => match s.entry i with
        | none => s
        | some e =>
          let s := s.setEntry i { e with seeded := false }
          let accepted := match s.ros.run with | some r => r.op == 2 && r.names n (e.hub, e.port) | none => false
          let s := rosEvent (if a.isNew || accepted then .nodeNew else .nodeRestored) n (e.hub, e.port) s
          if e.seeded && !e.isHub then grantSeeded i s else s
    attachEnd n stOk s

/-- After SET_ADDRESS: the node has its address, every endpoint its start values (R62, R172).  Its tags began at 0 with
this attach (DESIGN CHOICE, log 74). -/
def attachAddressed (n i : Nat) (a : Attach) (s : State) : State :=
  match s.entry i with
  | none => s
  | some e =>
    let s := s.setEntry i { e with attached := true, tag := a.tag, setup := [], acted := false }
    updCtxs (fun _ c => c.used && c.trunk == n && c.addr == e.addr)
      (fun c => { c.start with occ := {}, nakFrame := none }) s

/-- The step after `k` that has something to do (R208). -/
def attachNext (n k : Nat) (s : State) : State :=
  match (s.trk n).attach with
  | none => s
  | some a => match a.entry.bind s.entry with
    | none => attachFail n s
    | some e =>
      if k < 4 && a.restore && e.configValid then attachReq n 4 s
      else if k < 5 && a.restore && e.wake then attachReq n 5 s
      else if k = 5 && e.port ≠ 0 then attachReq n 6 s
      else attachFinish n s

/-- Free contexts of the manager reserve of trunk `n`. -/
def State.mgrCtxFree (s : State) (n : Nat) : Nat := s.ctxResv n 0 - s.ctxCount n 0

/-- A hub's two contexts and its EP1 entry (R204, R261): whether it may be addressed. -/
def hubReady (i : Nat) (s : State) : Bool × State :=
  match s.entry i with
  | none => (false, s)
  | some e =>
    let get := fun (ep : Nat) (s : State) => if (s.ctxOf e.trunk e.addr ep).isSome then s else (allocCtx i ep 0 s).2
    let t := get 1 (get 0 s)
    match t.ctxOf e.trunk e.addr 1 with
    | none => (false, s)
    | some c => if (t.ctx c).alm.present then (true, t)
      else match placeHub c t with
      | (true, t) => (true, t)
      | (false, _) => (false, s)

/-- The node gets an entry's address (Table 6.6, R261).  A restored node's entry keeps its identity, the serial included
(DESIGN CHOICE, log 75). -/
def attachAddress (n i : Nat) (isNew : Bool) (s : State) : State :=
  match (s.trk n).attach, s.entry i with
  | some a, some e =>
    let hub := byteAt a.identity 4 == 1
    let s := s.setEntry i { e with epmap := a.epmap, isHub := hub }
    let s := s.updTrk n (fun t => { t with attach := some { a with entry := some i, restore := !isNew, isNew := isNew } })
    let r := if hub then hubReady i s else (true, s)
    if r.1 then attachReq n 3 r.2
    else attachOff n .almHubUnplaced (some (.almanac (s.mgrFree n))) (undoNew { a with entry := some i, isNew := isNew } s)
  | _, _ => s

/-- A node whose identity differs takes a held slot (R63, R213); which one is open (log 1). -/
def attachHold (n i : Nat) (a : Attach) (s : State) : State :=
  let pos := s.behind n a.hub a.port
  match freeIndex (fun j => (Keyed.find s.ros.held j).isSome) 16 s with
  | (none, s) => attachOff n .heldTableFull (some .held) s
  | (some j, s) =>
    let h : Held := { trunk := n, hub := pos.1, port := pos.2, entry := i, identity := a.identity }
    attachOff n .nodeHeld (some .detach) { s with ros := { s.ros with held := Keyed.insert j h s.ros.held } }

/-- The lowest free address of trunk `n` (R209). -/
def State.freeAddr (s : State) (n : Nat) : Option Nat :=
  ((List.range 511).map (· + 1)).find? (fun a => (s.entryOf n a).isNone)

/-- The decision of Table 6.6. -/
def attachDecide (n : Nat) (s : State) : State :=
  match (s.trk n).attach with
  | none => s
  | some a =>
    let pos := s.behind n a.hub a.port
    let kind := byteAt a.identity 4
    let at' := s.entryAt n pos.1 pos.2
    let holds := match at' with
      | some (_, e) => e.isHub && (s.ctxOf n e.addr 0).isSome && (s.ctxOf n e.addr 1).isSome
      | none => false
    if kind = 1 ∧ a.port ≠ 16 then attachOff n .hubOnFunctionPort (some .detach) s
    else if kind = 2 ∧ a.port = 16 then attachOff n .functionOnSpine (some .detach) s
    else if kind ≠ 1 ∧ kind ≠ 2 then
      attachFail n (s.updTrk n (fun t => { t with attach := some { a with step := 1 } }))
    else if kind = 1 ∧ !holds ∧ s.mgrCtxFree n < 2 then attachOff n .hubNoContext (some .contexts) s
    else match at' with
    | some (i, e) =>
      if sameIdentity e.identity a.identity then
        attachAddress n i false s
      else attachHold n i a s
    | none =>
      if 4096 ≤ s.ros.entries.length then attachOff n .rosterFull (some .entry) s
      else match s.freeAddr n with
      | none => attachOff n .nodeNoAddress (some .address) s
      | some addr => match freeIndex (fun j => (s.entry j).isSome) 4096 s with
        | (none, s) => attachOff n .rosterFull (some .entry) s
        | (some i, s) => attachAddress n i true (s.setEntry i
            { trunk := n, hub := pos.1, port := pos.2, addr := addr, owner := 0, identity := a.identity,
              config := List.replicate 16 0 })

/-- `ATTACH_STEP_DONE` (R208): nothing goes to address 0 while a hub has a port request to act on (R169, R207; log 54). -/
def attachStep (n : Nat) (s : State) : State :=
  match (s.trk n).attach with
  | none => s
  | some a => match a.result with
    | none => s
    | some st =>
      if a.failed || a.retryNext then s
      else if !isSuccess st then attachFail n s
      else
        match a.step with
        | 0 => if (s.trk n).unacted.isEmpty then attachReq n 1 s else s
        | 1 => attachReq n 2 s
        | 2 => attachDecide n s
        | 3 => match a.entry with
          | some i => attachNext n 3 (attachAddressed n i a s)
          | none => attachFail n s
        | k => attachNext n k s

/-- What an attach has given a node is taken back: a new entry, or the attached flag of one restored. -/
def attachUndo (a : Attach) (s : State) : State :=
  match a.entry with
  | none => s
  | some i => if a.isNew then undoNew a s else detachEntry i stPruned false s


/-! What a frame boundary does (R209, R210, R213, R261). -/

/-- A port that waits may be handled again. -/
def State.againNow (s : State) (n : Nat) (w : AgainFor) : Bool :=
  match w with
  | .address => (s.freeAddr n).isSome
  | .entry => decide (s.ros.entries.length < 4096)
  | .contexts => decide (2 ≤ s.mgrCtxFree n)
  | .held => decide (s.ros.held.length < 16)
  | .almanac free => decide (free < s.mgrFree n)
  | .detach => false
/-- Insert in position order. -/
def insertPos (x : Nat × Nat) : List (Nat × Nat) → List (Nat × Nat)
  | [] => [x]
  | y :: t => if x.1 < y.1 ∨ (x.1 = y.1 ∧ x.2 ≤ y.2) then x :: y :: t else y :: insertPos x t
/-- Ports to be handled again, in position order, and a failed attach tried again. -/
def attachBoundary (n : Nat) (s : State) : State :=
  let ready := (s.trk n).again.filter (fun x => s.againNow n x.2.2)
  let order := ready.foldl (fun l x => insertPos (x.1, x.2.1) l) []
  let s := order.foldl (fun s x => queueAttach n x.1 x.2 s) s
  match (s.trk n).attach with
  | some a => if a.retryNext then attachReq n a.step s else s
  | none => s

/-! Hub event entries that no longer fit (R260, R261). -/

/-- A hub whose EP1 entry cannot be placed is addressed no longer (R261). -/
def hubUnplaced (n i : Nat) (s : State) : State :=
  match s.entry i with
  | none => s
  | some e =>
    let up := s.parentOf n e.hub
    let s := rosEvent .almHubUnplaced n (e.hub, 0) (portOff n up 16 s)
    let free := s.mgrFree n
    (detachNode n e.hub 0 s).updTrk n (fun t => { t with again := t.again ++ [(up, 16, .almanac free)] })

/-- After a confirmed rate change every entry is placed again, in ascending order, its phase kept (R260). -/
def replaceAll (n : Nat) (s : State) : State :=
  (s.almOf n).foldl (fun s c =>
    let x := s.ctx c
    match s.placeBoth x x.alm.ilog2 x.alm.phase false (fun j => decide (c ≤ j)) with
    | (_, some a) => s.updCtx c (fun x => { x with alm := a })
    | (_, none) =>
      let s := s.updCtx c (fun x => { x with alm := {}, occ := {} })
      if x.alm.hubEv then hubUnplaced n x.entry s else raise 0 .almEntryDropped n c s) s

/-- An `ATTACH` for the head anchor (R484): at a start, or during a readmission, after which SOFs, and with them the
frame's parts, resume at the next boundary (log 58). -/
def headAttach (n : Nat) (s : State) : State :=
  let t := s.trk n
  if t.state ≠ .running ∨ t.quarantined then s
  else queueAttach n 0 16 (s.updTrk n (fun t => { t with headIdle := false, part := if t.headIdle then 3 else t.part }))

/-- `ATTACH_START` (R208). -/
def execAttachStart (trunk : Fin 8) (s : State) : Host.Outcome State Fault Refusal := finish (attachStart trunk s)
/-- `ATTACH_STEP_DONE` (R208). -/
def execAttachStepDone (trunk : Fin 8) (s : State) : Host.Outcome State Fault Refusal := finish (attachStep trunk s)
/-- `HEAD_ANCHOR_ATTACH` (R484). -/
def execHeadAnchorAttach (trunk : Fin 8) (s : State) : Host.Outcome State Fault Refusal := finish (headAttach trunk s)

end Sys2Proof.Machine
end

