-- ==== Sys2Proof/Machine/Roster.lean ====
section
/-! DEFINITION. `ROS_CMD`, port events and line sleep (R203, R213, R216 to R228). -/

namespace Sys2Proof.Machine

/-- Offset of `ROS_CMD`. -/
def rosCmdOffset : Nat := 0x80010
/-- A command starts where its preconditions hold and none runs; otherwise it is dropped (R226, Table 6.12). -/
def rosBegin (ok : Bool) (op n hub port : Nat) (f : State → State) (s : State) : State :=
  if !s.responds .ros then s
  else if s.ros.busy || !ok then cfgReject 0 rosCmdOffset s
  else f { s with ros := { s.ros with busy := true, run := some { op := op, trunk := n, hub := hub, port := port } } }

/-! Held slots and entries (R213, R226). -/

/-- Settle a held slot by addressing its node: adopt or accept new (R213). -/
def rosSettle (op slot : Nat) (s : State) : State :=
  match Keyed.find s.ros.held slot with
  | none => rosBegin false op 0 0 0 id s
  | some h => rosBegin true op h.trunk h.hub h.port (fun s =>
      let s := { s with ros := { s.ros with held := Keyed.erase slot s.ros.held } }
      let s := match s.entry h.entry with
        | none => s
        | some e =>
          if op = 1 then s.setEntry h.entry { e with identity := h.identity }
          else
            (freeNode e.trunk e.addr s).setEntry h.entry { e with identity := h.identity, configValid := false, wake := false }
      if h.port ≠ 0 then queueAttach h.trunk h.hub h.port s
      else queueAttach h.trunk (s.parentOf h.trunk h.hub) 16 s) s

/-- Reject (R213): the slot is freed, the port stays disabled. -/
def rosRejectOp (slot : Nat) (s : State) : State :=
  rosBegin (Keyed.find s.ros.held slot).isSome 3 0 0 0
    (fun s => rosDone stOk { s with ros := { s.ros with held := Keyed.erase slot s.ros.held } }) s

/-- Delete (R226): an entry neither attached nor held. -/
def rosDeleteOp (i : Nat) (s : State) : State :=
  let ok := match s.entry i with
    | some e => !e.attached && !s.ros.held.any (fun h => h.2.entry == i)
    | none => false
  rosBegin ok 4 0 0 0 (fun s =>
    let s := match s.entry i with
      | some e => freeNode e.trunk e.addr s
      | none => s
    rosDone stOk { s with ros := { s.ros with entries := Keyed.erase i s.ros.entries } }) s

/-! Line sleep (R216 to R224). -/

/-- The sleep state of a scope (Table 6.8). -/
def State.scope (s : State) (n h port : Nat) : Sleep :=
  if h = 0 then (s.trk n).sleep
  else if port = 16 then ((s.trk n).hub h).far else Tab.get Sleep.awake ((s.trk n).hub h).ports port
/-- Set the sleep state of a scope. -/
def setScope (n h port : Nat) (v : Sleep) (s : State) : State :=
  s.updTrk n (fun t =>
    if h = 0 then { t with sleep := v }
    else if port = 16 then t.updHub h (fun x => { x with far := v })
    else t.updHub h (fun x => { x with ports := Tab.put .awake port v x.ports }))
/-- Some scope of the trunk inside the named one is not awake. -/
def State.scopeBusy (s : State) (n h port : Nat) : Bool :=
  let t := s.trk n
  let inner : Nat × Hub → Bool := fun x => x.2.far != .awake || !x.2.ports.isEmpty
  if h = 0 then t.sleep != .awake || t.hubs.any inner
  else if port = 16 then (s.scopes n h 0).any (· != .awake) || (t.hub h).far != .awake
      || t.hubs.any (fun x => decide (s.hopOf n h < s.hopOf n x.1) && inner x)
  else (s.scopes n h port).any (· != .awake)
/-- A target of the scope is pruned or quarantined (R216). -/
def State.scopeCut (s : State) (n h port : Nat) : Bool :=
  let t := s.trk n
  t.quarantined || t.hubs.any (fun x => x.2.pruned && (h == 0 || decide (s.hopOf n x.1 < s.hopOf n h)
    || (port == 16 && decide (s.hopOf n h ≤ s.hopOf n x.1))))
/-- A scope of Table 6.8. -/
def scopeNamed (h port : Nat) : Bool :=
  (h == 0 && port == 16) || (decide (1 ≤ h) && decide (h ≤ 64) && decide (1 ≤ port) && decide (port ≤ 16))

/-- `SUSPEND` (R216 to R218): a trunk suspend is accepted at once; another goes to its hub. -/
def rosSuspendOp (n h port : Nat) (s : State) : State :=
  rosBegin (scopeNamed h port && !s.scopeBusy n h port && !s.scopeCut n h port) 5 n h port (fun s =>
    if h = 0 then setScope n 0 16 (.eve s.frame) s
    else hubRequest n h .rosCmd 0x03 port 0 (setScope n h port (.asked false) s)) s

/-- The target is suspended as far as this unit knows: in a suspended scope, or on a port of a hub that the partner
reported as a holder before a claim (R226, R227). -/
def State.mayResume (s : State) (n h port : Nat) : Bool :=
  (s.scope n h port).deep
    || (((s.trk n).hub h).holder && decide (1 ≤ port) && decide (port ≤ 15) && s.scope n h port == .awake)

/-- `RESUME` (R223, R226). -/
def rosResumeOp (n h port : Nat) (s : State) : State :=
  rosBegin (scopeNamed h port && s.mayResume n h port) 6 n h port (fun s =>
    match s.scope n h port with
    | .waking f _ => setScope n h port (.waking f true) s
    | _ => if h = 0 then setScope n 0 16 (.waking (s.frame + 1) true) s
           else hubRequest n h .rosCmd 0x04 port 0 s) s

/-- `RESET_PORT` (R202). -/
def rosResetOp (n h port : Nat) (s : State) : State :=
  rosBegin true 7 n h port (fun s => hubRequest n h .rosCmd 0x07 port 0 s) s

/-- GET_HUB_STATUS to a hub (R228). -/
def askStatus (n h : Nat) (use : CtlUse) (s : State) : State :=
  match s.entryAt n h 0 with
  | some (_, e) => startCtl n e.addr h use (mkSetup 0x09 true 1 0 0 20) [] s
  | none => ctlAnswer use stPruned [] s

/-- The request of the running command has ended (R218, R223, R228): a failure is reported once the hub state has
been read back. -/
def rosRequestDone (s : State) : State :=
  match s.ros.run with
  | none => s
  | some r => match r.status with
    | none => s
    | some st =>
      let go := fun (f : Option Nat) (s : State) =>
        { s with ros := { s.ros with run := some { r with status := none, failSt := f } } }
      match r.failSt with
      | some f => rosDone f s
      | none =>
        if isSuccess st then
          match r.op with
          | 5 => setScope r.trunk r.hub r.port (.eve s.frame) (go none s)
          | 6 => match s.scope r.trunk r.hub r.port with
            | .waking f _ => setScope r.trunk r.hub r.port (.waking f true) (go none s)
            | _ => setScope r.trunk r.hub r.port (.waking (s.frame + 1) true) (go none s)
          | _ => rosDone stOk s
        else
          let s := if r.op = 5 then setScope r.trunk r.hub r.port .awake s else s
          askStatus r.trunk r.hub .rosCmd (go (some st) s)

/-- After 3 failed attaches (R210); an adopt or accept new whose hub request failed completes with the request's status,
once the hub state has been read back (R228). -/
def attachGiveUp (n : Nat) (s : State) : State :=
  match (s.trk n).attach with
  | none => s
  | some a =>
    if !a.failed then s
    else
      let pos := s.behind n a.hub a.port
      let asked := (a.step == 0 || a.step == 6) && a.hub != 0
        && (match s.ros.run with | some r => r.names n pos | none => false)
      if asked then
        let s := (attachUndo a s).updTrk n (fun t => { t with attach := none })
        let s := rosEvent .nodeAttachFailed n pos (portOff n a.hub a.port s)
        askStatus n a.hub .rosCmd { s with ros := { s.ros with
          run := s.ros.run.map (fun r => { r with status := none, failSt := some a.lastFail }) } }
      else attachOff n .nodeAttachFailed none (attachUndo a s)

/-- Finish what is due of the running command: a request that could not be sent answers at once. -/
def rosProgress (s : State) : State := rosRequestDone (rosRequestDone s)

/-- Complete the running command of a scope, if it runs. -/
def rosDoneScope (op n h port st : Nat) (s : State) : State :=
  match s.ros.run with
  | some r => if r.op = op ∧ r.trunk = n ∧ r.hub = h ∧ (h = 0 ∨ r.port = port) then rosDone st s else s
  | none => s

/-- A sleep event names its scope by hub position and port. -/
def sleepEvent (name : EventName) (n h port : Nat) (s : State) : State := raise 0 name n (pairDetail h port) s

/-- A scope is suspended (R220): waiting transfers to its targets complete `SUSPENDED`. -/
def sleepEntered (n h port : Nat) (s : State) : State :=
  let s := setScope n h port .asleep s
  let s := sleepEvent .sleepEntered n h port (rosDoneScope 5 n h port stOk s)
  endWhere (fun i x => x.trunk == n && (s.targetOf x).1 == .asleep && !s.inSlot i n
    && (match x.origin with | .port _ _ => false | _ => true)) stSuspended s

/-- A suspend is cancelled (R219). -/
def sleepCancelled (n h port : Nat) (s : State) : State :=
  sleepEvent .sleepAborted n h port (rosDoneScope 5 n h port stSuspendAborted (setScope n h port .awake s))

/-- A scope is awake again at the boundary of r + 2 (R224). -/
def resumeDone (n h port : Nat) (s : State) : State :=
  sleepEvent .resumeDone n h port (rosDoneScope 6 n h port stOk (setScope n h port .awake s))

/-- The line port of trunk `n` drives it: started, not parked (R29, R41). -/
def State.driven (s : State) (n : Nat) : Bool := (s.trk n).state == .running && s.mayDrive n
/-- A line port that drives its trunk puts it into electrical idle, its driver disabled, or sends a signal on it
(R29, R41, R149). -/
def lineSend (n : Nat) (sig : LineSig) (s : State) : State :=
  if s.driven n then emit (.signal n sig) (s.updTrk n (fun t => { t with dtxen := sig != .electricalIdle })) else s
/-- Frame boundary `s.frame` for the trunk scope: the eve ends at a + 3, a resume at r + 2 (R218, R220, R223). -/
def trunkSleep (n : Nat) (s : State) : State :=
  match (s.trk n).sleep with
  | .eve a => if a + 3 ≤ s.frame then lineSend n .electricalIdle (sleepEntered n 0 16 s) else s
  | .waking r _ =>
    if r + 2 ≤ s.frame then resumeDone n 0 16 s
    else if s.frame = r then lineSend n .resume s else s
  | _ => s
/-- Scopes of hubs whose resume is over. -/
def hubSleep (n : Nat) (s : State) : State :=
  let ended : Sleep → Bool := fun v => match v with | .waking r _ => decide (r + 2 ≤ s.frame) | _ => false
  (s.trk n).hubs.foldl (fun s h =>
    let s := if ended h.2.far then resumeDone n h.1 16 s else s
    h.2.ports.foldl (fun s p => if ended p.2 then resumeDone n h.1 p.1 s else s) s) s
/-- The trunk's holder sends no SOF: asleep, or until r + 2 of a resume (R220, R223). -/
def State.sofStopped (s : State) (n : Nat) : Bool := (s.trk n).sleep.deep

/-- `RX_WAKE` (R219, R223): in eve a WAKE cancels; asleep, four sets begin the resume. -/
def wakeReceived (n sets : Nat) (s : State) : State :=
  match (s.trk n).sleep with
  | .eve _ => if sets = 0 then s else sleepEvent .wakeReceived n 0 16 (sleepCancelled n 0 16 s)
  | .asleep => if sets < 4 then s
      else sleepEvent .wakeReceived n 0 16 (setScope n 0 16 (.waking (s.frame + 1) false) s)
  | _ => s

/-! Port events (R203, Table 6.4). -/

/-- The frame count that a 16-bit frame number names, at most 65,535 frames back. -/
def State.frameOf (s : State) (d : Nat) : Nat := s.frame - (s.frame + 65536 - d % 65536) % 65536

/-- A port is gone (R214): its waiting record, its attach and its node.  A port that the controller holds enabled is
disabled, so that what attaches there is reported (Table 6.4, R62) and no second node is at address 0 (R207; log 55). -/
def portGone (n h port : Nat) (s : State) : State :=
  let running := match (s.trk n).attach with | some a => a.hub == h && a.port == port | none => false
  let s := dropAttaches n stPruned (fun x y => x == h && y == port) s
  let pos := s.behind n h port
  let off := fun (s : State) => if port = 16 ∧ ((s.trk n).hub h).pruned then s else portOff n h port s
  match s.entryAt n pos.1 pos.2 with
  | some (_, e) => if e.attached then off (detachNode n pos.1 pos.2 s) else if running then off s else s
  | none => if running then off s else s

/-- An `ATTACH` record: a port that waits under R209, R213 or R261 goes on waiting (Table 6.13). -/
def attachRecord (n h port : Nat) (s : State) : State :=
  if (s.trk n).again.any (fun x => x.1 == h && x.2.1 == port) then s else queueAttach n h port s

/-- One port-event record of the hub at position `h`. -/
def portEvent (n h : Nat) (rec : List Byte) (s : State) : State :=
  let port := byteAt rec 0
  let d := leAt rec 2 2
  match byteAt rec 1 with
  | 0x01 => attachRecord n h port s
  | 0x02 => portGone n h port s
  | 0x03 =>
    let s := if d ≠ 0xFFFF ∧ s.scope n h port = .asleep then setScope n h port (.waking (s.frameOf d) false) s else s
    if 1 ≤ port ∧ port ≤ 15 then sleepEvent .wakeReceived n h port s else s
  | 0x04 => (match s.scope n h port with | .eve _ => sleepEntered n h port s | _ => s)
  | 0x05 => (match s.scope n h port with | .eve _ => sleepCancelled n h port s | _ => s)
  | 0x06 => rosEvent .hubClaimed n (h, 0) s
  | 0x07 => askStatus n h (.status n h) (rosEvent .hubEventsLost n (h, 0) s)
  | _ => s

/-- The records of a sample in order. -/
def portEvents (n h : Nat) : Nat → List Byte → State → State
  | 0, _, s => s
  | k + 1, b, s => if b.length < 4 then s else portEvents n h k (b.drop 4) (portEvent n h (b.take 4) s)

/-- The answer to GET_HUB_STATUS after an OVERFLOW (R228): attaches and detaches that were lost. -/
def hubStatus (n h : Nat) (b : List Byte) (s : State) : State :=
  (List.range 16).foldl (fun s i =>
    let x := byteAt b (4 + i)
    let port := i + 1
    let up := x / 64 % 2 == 1
    if up && x % 8 == 0 then attachRecord n h port s
    else if !up && x % 8 == 1 then portGone n h port s
    else s) s

/-- `ADOPT` (R213). -/
def execRosAdopt (slot : Nat) (s : State) : Host.Outcome State Fault Refusal := finish (rosSettle 1 (slot % 4096) s)
/-- `ACCEPT_NEW` (R213). -/
def execRosAcceptNew (slot : Nat) (s : State) : Host.Outcome State Fault Refusal := finish (rosSettle 2 (slot % 4096) s)
/-- `REJECT` (R213). -/
def execRosReject (slot : Nat) (s : State) : Host.Outcome State Fault Refusal := finish (rosRejectOp (slot % 4096) s)
/-- `DELETE` (R226). -/
def execRosDelete (entry : Nat) (s : State) : Host.Outcome State Fault Refusal := finish (rosDeleteOp (entry % 4096) s)
/-- `SUSPEND` (R216). -/
def execRosSuspend (trunk : Fin 8) (hub port : Nat) (s : State) : Host.Outcome State Fault Refusal :=
  finish (rosProgress (rosSuspendOp trunk (hub % 128) (port % 32) s))
/-- `RESUME` (R223). -/
def execRosResume (trunk : Fin 8) (hub port : Nat) (s : State) : Host.Outcome State Fault Refusal :=
  finish (rosProgress (rosResumeOp trunk (hub % 128) (port % 32) s))
/-- `RESET_PORT` (R202). -/
def execRosResetPort (trunk : Fin 8) (hub port : Nat) (s : State) : Host.Outcome State Fault Refusal :=
  finish (rosProgress (rosResetOp trunk (hub % 128) (port % 32) s))
/-- `RX_WAKE` (R223). -/
def execRxWake (trunk : Fin 8) (sets : Nat) (s : State) : Host.Outcome State Fault Refusal :=
  finish (wakeReceived trunk sets s)
/-- `RESUME_SIGNAL_END` (R223). -/
def execResumeSignalEnd (trunk : Fin 8) (s : State) : Host.Outcome State Fault Refusal :=
  finish (match (s.trk trunk).sleep with
    | .waking _ _ => lineSend trunk .idle s
    | _ => s)
/-- `NODE_ATTACH_FAILED` (R210). -/
def execNodeAttachFailed (trunk : Fin 8) (s : State) : Host.Outcome State Fault Refusal :=
  finish (rosProgress (attachGiveUp trunk s))

end Sys2Proof.Machine
end

