-- ==== Sys2Proof/Machine/Faults.lean ====
section
/-! DEFINITION. Settling the counters, the locate walk, probes, readmission, urgent hold (R463, R476 to R486). -/

namespace Sys2Proof.Machine

/-! The settlement at the guard (R477, R479). -/

/-- The deepest hop index from which a good response arrived. -/
def goodDepth (l : List Exchange) : Nat := (l.map (fun e => if e.good then e.hop else 0)).foldl max 0
/-- A counter loses 1, unless it is saturated. -/
def decSeg (n j : Nat) (s : State) : State :=
  let v := s.seg n j
  if v = 255 ∨ v = 0 then s else setSeg n j (v - 1) s
/-- Charge an error to the segment entering hop index `j`. -/
def chargeSeg (n j : Nat) (s : State) : State :=
  let s := setSeg n j (min 255 (s.seg n j + 8)) s
  if j ≤ 1 then s
  else s.updTrk n (·.updHub (s.hubAt n (j - 1)) (fun h => { h with charged := satAdd 0xFFFF h.charged 1 }))
/-- One exchange of the frame, with `g` fixed. -/
def settleOne (n g : Nat) (e : Exchange) (s : State) : State :=
  if e.good then (List.range e.hop).foldl (fun s i => decSeg n (i + 1) s) s
  else if e.hop ≤ g then s else chargeSeg n (g + 1) s
/-- The exchanges of a frame settle in the order in which they ended. -/
def settle (n : Nat) (s : State) : State :=
  let l := (s.trk n).exchanges
  let s := l.foldl (fun s e => settleOne n (goodDepth l) e s) s
  s.updTrk n (fun t => { t with exchanges := [] })

/-- The segments of a trunk, from the driving end, that could be charged. -/
def State.segsOf (s : State) (n : Nat) : List Nat := (List.range (max 1 (s.deepest n))).map (· + 1)
/-- The shallowest saturated counter whose hub is reachable (R479, Table 15.7). -/
def State.saturatedSeg (s : State) (n : Nat) : Option Nat :=
  (s.segsOf n).find? (fun j => s.seg n j == 255 && s.reach n (s.hubAt n j) 0 == .ok)

/-! Splitting (R463). -/

/-- A saturated segment splits the trunk instead of being walked (R463, R479). -/
def State.splits (s : State) (n : Nat) : Bool :=
  s.pairFed n && s.tdm.active && s.tdm.pair == .mirrored && (s.trk n).mode == .whole && !s.tdm.changeoverDue
/-- The active unit splits a trunk at the segment entering hop index `j` (Table 14.6). -/
def splitAt (n j : Nat) (s : State) : State :=
  let k := j - 1
  let s := s.updTrk n (fun t => { t with mode := .split, splitK := k, splitAt := s.frame, healClean := 0, healAt := none })
  if k = 0 then emit (.signal n .electricalIdle) (s.updTrk n (fun t => { t with dtxen := false })) else s
/-- A split follows a saturation found in the frame (R463). -/
def trySplit (n : Nat) (s : State) : State :=
  if !s.splits n then s
  else match s.saturatedSeg n with
  | some j => splitAt n j s
  | none => s

/-! The locate walk (R480). -/

/-- The first addressed hub at hop index `j` or beyond. -/
def State.nextHop (s : State) (n j : Nat) : Option Nat :=
  ((List.range (s.deepest n + 1)).filter (fun h => decide (j ≤ h) && decide (1 ≤ h))).find?
    (fun h => (s.hubsUp n).contains (s.hubAt n h))
/-- A walk starts at a boundary, where none runs. -/
def startWalk (n : Nat) (s : State) : State :=
  let t := s.trk n
  if t.walk.isSome || t.pruneAt.isSome || t.quarantined || t.state != .running || s.splits n then s
  else match s.saturatedSeg n with
  | none => s
  | some j =>
    raise 0 .lineLocate n j (s.updTrk n (fun t => { t with walk := some { first := j, cur := j }, unreach := j }))
/-- Set the counters of the segments from hop `a` up to but not including `b`. -/
def zeroSegs (n a b : Nat) (s : State) : State :=
  ((List.range b).filter (a ≤ ·)).foldl (fun s j => setSeg n j 0 s) s
/-- Every hub of the walk answered. -/
def walkClear (n : Nat) (w : Walk) (s : State) : State :=
  let s := zeroSegs n w.first (max (s.deepest n) w.first + 1) s
  raise 0 .lineLocateClear n 0 (s.updTrk n (fun t => { t with walk := none }))
/-- Hub `m` failed all four attempts. -/
def walkFailed (n m : Nat) (w : Walk) (s : State) : State :=
  let s := setSeg n m 255 (zeroSegs n w.first m s)
  s.updTrk n (fun t => { t with walk := none, pruneAt := some m })
/-- The walk's hub at hop index `h` has answered or failed an attempt. -/
def walkStep (n h : Nat) (good : Bool) (s : State) : State :=
  match (s.trk n).walk with
  | none => s
  | some w =>
    if good then
      match s.nextHop n (h + 1) with
      | none => walkClear n w s
      | some c => s.updTrk n (fun t => { t with walk := some { w with cur := c, tries := 0 } })
    else if 4 ≤ w.tries + 1 then walkFailed n h w s
    else s.updTrk n (fun t => { t with walk := some { w with tries := w.tries + 1 } })

/-- A boundary: what the walk found is cut off, or its hubs are reachable again (R480). -/
def walkBoundary (n : Nat) (s : State) : State :=
  match (s.trk n).pruneAt with
  | some m =>
    let s := s.updTrk n (fun t => { t with pruneAt := none })
    if m ≤ 1 then quarantine n s else pruneFar n (s.hubAt n (m - 1)) s
  | none =>
    let s := if (s.trk n).walk.isNone then s.updTrk n (fun t => { t with unreach := 0 }) else s
    startWalk n s

/-! Probing (R483, R484). -/

/-- A boundary opens a probe frame of something cut off at boundary `p`. -/
def State.probeFrame (s : State) (p : Nat) : Bool := decide (p < s.frame) && decide ((s.frame - p) % 128 = 0)
/-- What the controller sends at the boundary of a probe frame, and what it takes back after one. -/
def probeBoundary (n : Nat) (s : State) : State :=
  let t := s.trk n
  if t.quarantined then
    if s.probeFrame t.quarAt && s.mayDrive n then emit (.signal n .idle) (s.updTrk n (fun t => { t with dtxen := true }))
    else if t.dtxen && !t.quarIdle then
      emit (.signal n .electricalIdle) (s.updTrk n (fun t => { t with dtxen := false }))
    else s
  else t.hubs.foldl (fun s h =>
    let s := s.updTrk n (·.updHub h.1 (fun h => { h with probeUp := false }))
    if h.2.pruned && s.probeFrame h.2.prunedAt && s.reach n h.1 0 == .ok then
      askStatus n h.1 (.prune n h.1) (hubRequest n h.1 (.prune n h.1) 0x06 16 0 s)
    else s) s
/-- A clean probe counts; any other sets the count to 0. -/
def cleanCount (c : Nat) (clean : Bool) : Nat := if clean then min 8 (c + 1) else 0
/-- `PROBE` (R483): target 0 is the trunk, otherwise the hub whose far side is pruned, which is clean when the
GET_HUB_STATUS of the frame answered with port 16's link up. -/
def probe (n k : Nat) (seen : ProbeSeen) (s : State) : State :=
  let t := s.trk n
  if k = 0 then
    if t.quarantined && s.probeFrame t.quarAt then
      s.updTrk n (fun t => { t with clean := cleanCount t.clean (seen.locked && seen.kept && !seen.lfault && !t.lfault) })
    else s
  else if (t.hub k).pruned && s.probeFrame (t.hub k).prunedAt && !t.quarantined then
    let clean := (t.hub k).probeUp && s.reach n k 0 == .ok
    s.updTrk n (·.updHub k (fun h => { h with clean := cleanCount h.clean clean }))
  else s
/-- `READMISSION` (R484): a standby's port of a pair-fed trunk is parked again (R29). -/
def readmit (n k : Nat) (s : State) : State :=
  let t := s.trk n
  if k = 0 then
    if t.quarantined && decide (8 ≤ t.clean) then
      let s := setSeg n 1 0 s
      let drive := s.mayDrive n
      let s := s.updTrk n (fun t =>
        { t with quarantined := false, clean := 0, quarIdle := false, dtxen := drive, headIdle := drive,
                 state := if s.pairFed n && !s.tdm.active && t.mode == .whole then .parked else .running })
      raise 0 .subtreeReadmitted n 0 (if drive then emit (.signal n .idle) s else s)
    else s
  else if (t.hub k).pruned && decide (8 ≤ (t.hub k).clean) && !t.quarantined then
    let s := setSeg n (s.hopOf n k + 1) 0 s
    let s := s.updTrk n (·.updHub k (fun h => { h with pruned := false, clean := 0 }))
    raise 0 .subtreeReadmitted n k (hubRequest n k (.readmit n k) 0x02 16 0 s)
  else s

/-! Urgent transfers at the limit (R485). -/

/-- A walk, a prune or a quarantine keeps the target away. -/
def Reach.cut (r : Reach) : Bool := r == .pruned || r == .quarantined || r == .walking
/-- Hold counts at a boundary: a reachable target discards the count, a held trunk stops it. -/
def holdCounts (n : Nat) (s : State) : State :=
  s.xfers.foldl (fun s x =>
    if x.2.trunk == n && x.2.urgent && !x.2.ended then
      if !(s.targetOf x.2).1.cut then s.updXfer x.1 (fun y => { y with hold := 0 })
      else if s.heldTrunk n then s
      else s.updXfer x.1 (fun y => { y with hold := min 15 (y.hold + 1) })
    else s) s
/-- `URGENT_EXPIRED` (R485). -/
def urgentExpire (i : Nat) (s : State) : State :=
  match s.xfer i with
  | none => s
  | some x =>
    if x.urgent && !x.ended && (s.targetOf x).1.cut && decide (max 1 (s.trk x.trunk).urgentHold.inForce ≤ x.hold) then
      endXfer i stUrgentExpired s
    else s

/-- `PROBE` (R483). -/
def execLineProbe (trunk : Fin 8) (target : Nat) (seen : ProbeSeen) (s : State) : Host.Outcome State Fault Refusal :=
  finish (probe trunk target seen s)
/-- `READMISSION` (R484). -/
def execReadmission (trunk : Fin 8) (target : Nat) (s : State) : Host.Outcome State Fault Refusal :=
  finish (readmit trunk target s)
/-- `URGENT_EXPIRED` (R485). -/
def execUrgentExpired (xfer : Fin 4096) (s : State) : Host.Outcome State Fault Refusal :=
  finish (urgentExpire xfer s)

end Sys2Proof.Machine
end

