-- ==== Sys2Proof/Machine/Ports.lean ====
section
/-! DEFINITION. Receive ports and resets of cell queues (R378 to R390). -/

namespace Sys2Proof.Machine

/-- The level of a port's queue in cells (R371). -/
def Rxp.level (x : Rxp) : Nat := itemCells x.items
/-- A port register answers: the manager's in the CQ block, a crew's in its window. -/
def State.portAccess (s : State) (k : Nat) : Bool := s.responds .cq && s.crewRuns k
/-- Offset of `RXP_WIN` of a port in the BAR its owner uses. -/
def rxpWinOffset (k p : Nat) : Nat := if k = 0 then 0x1C0104 + 0x40 * p else 0xE04 + 0x40 * p

/-- The reason of an open (Table 11.4). -/
def State.openReason (s : State) (k p : Nat) : Nat :=
  let x := s.rxp k p
  let c := s.ctx x.ctx
  if !(c.used && c.owner == k && !c.revoking) then poNotOwned
  else if c.kind ≠ 3 then poKind
  else if c.port.isSome || s.xfers.any (fun y => !y.2.ended && y.2.ctx == some x.ctx) then poBusy
  else if s.tcQuota k c.trunk ≤ s.tcUsed k c.trunk ∨ s.queueQuota k ≤ s.queuesUsed k then poQuota
  else if x.window < 4 ∨ 4096 < x.window ∨ x.window < ceilDiv c.longest 64 ∨ x.window < x.threshold then poBadArg
  else poOk

/-- `RXP_CTRL.open` (R378, R379): the standing transfer takes a context and a queue. -/
def openPort (k p : Nat) (s : State) : State :=
  let x := s.rxp k p
  if !s.portAccess k || x.state ≠ .closed then s
  else
    let r := s.openReason k p
    let s := s.updRxp k p (fun x => { x with reason := r })
    if r ≠ poOk then s
    else match Keyed.lowestFree s.xfers 4096 0 with
    | none => s.updRxp k p (fun x => { x with reason := poQuota })
    | some i =>
      let c := s.ctx x.ctx
      let t : Xfer := { seq := s.seq, crew := k, origin := .port k p, op := .bulkIn, trunk := c.trunk,
                        ctx := some x.ctx, addr := c.addr, ep := c.ep, queue := true }
      ({ s.setXfer i t with seq := s.seq + 1 }.updCtx x.ctx (fun c => { c with port := some p })).updRxp k p
        (fun x => { x with state := .open, xfer := some i, items := [], ptrs := {}, word := 0, above := false })

/-- One pop word (Table 11.5) of item `it` at word `i`. -/
def popWord (it : Item) (i : Nat) : BitVec 64 :=
  let n := min 4 (it.len - 4 * i)
  let last := it.len ≤ 4 * (i + 1)
  BitVec.ofNat 64 (leAt (slice it.data (4 * i) 4) 0 4 + 2 ^ 32 + bit (i == 0) * 2 ^ 33 + bit (decide last) * 2 ^ 34
    + (n - 1) * 2 ^ 35 + bit it.te * 2 ^ 37 + it.len * 2 ^ 48)

/-- A port's queue holds these items now: its pointers follow their cells (R371, R372). -/
def setPortItems (k p : Nat) (items : List Item) (s : State) : State :=
  let l := items.flatMap (·.cells)
  linkCells l (s.updRxp k p (fun x => { x with items := items, ptrs := Ptrs.chain l }))

/-- A word of the port can be popped now: an item is committed, the queue is not stopped and pops are not masked (R372, R383,
R401). -/
def State.canPop (s : State) (k p : Nat) : Bool :=
  let x := s.rxp k p
  !x.items.isEmpty && !x.ptrs.broken && !s.masked 0 9

/-- Take the next word; the last word of a cell releases it (R382), unless its pointers disagree (R372); the level may re-arm
the notice (R381). -/
def takeWord (k p : Nat) (s : State) : State :=
  let x := s.rxp k p
  match x.items with
  | [] => s
  | it :: rest =>
    let i := x.word
    let last := decide (it.len ≤ 4 * (i + 1))
    let freed := if last || decide (i % 16 = 15) then it.cells.take 1 else []
    let s := emit (.popReply k p (popWord it i)) s
    let items := if last then rest else { it with cells := it.cells.drop freed.length } :: rest
    let s := s.updRxp k p (fun x => { x with word := if last then 0 else i + 1 })
    let s := if freed.isEmpty then s
      else if s.headOk x.ptrs freed then setPortItems k p items (releaseCells freed s)
      else s.updRxp k p (fun x => { x with items := items, ptrs := { x.ptrs with broken := true } })
    s.updRxp k p (fun y => { y with above := y.above && decide (y.threshold ≤ y.level) })

/-- Waiting pops take the words there are. -/
def servePops : Nat → Nat → Nat → State → State
  | 0, _, _, s => s
  | n + 1, k, p, s =>
    if 0 < (s.rxp k p).waitPops ∧ s.canPop k p then
      servePops n k p (takeWord k p (s.updRxp k p (fun x => { x with waitPops := x.waitPops - 1 })))
    else s

/-- An item is committed to a port's queue (R371, R376): the notice of R381, then any waiting pop (Table 11.8); a mismatch of
pointers stops the queue instead (R372). -/
def commitItem (k p : Nat) (it : Item) (s : State) : State :=
  let x := s.rxp k p
  if !x.ptrs.tailOk || x.ptrs.broken then s.updRxp k p (fun x => { x with ptrs := { x.ptrs with broken := true } })
  else
    let s := setPortItems k p (x.items ++ [it]) (fillCells it s)
    let x := s.rxp k p
    let s := if x.packet then signalVector k x.vector s
      else if !x.above && decide (x.threshold ≤ x.level) then
        signalVector k x.vector (s.updRxp k p (fun x => { x with above := true }))
      else s
    servePops x.waitPops k p s

/-- `RXP_POP` (R382, R383): the next word, a wait for one, or valid clear on a closed port. -/
def popPort (k p : Nat) (s : State) : State :=
  let x := s.rxp k p
  if !s.portAccess k || x.state == .closed then emit (.popReply k p 0) s
  else if !s.canPop k p then s.updRxp k p (fun x => { x with waitPops := x.waitPops + 1 })
  else takeWord k p s

/-- The threshold of a port (R381, R505): out of range on an open port it is dropped with `CFG_REJECT`. -/
def setThreshold (fn off k p v : Nat) (s : State) : State :=
  let x := s.rxp k p
  if v = 0 ∨ (x.state ≠ .closed ∧ x.window < v) then cfgReject fn off s
  else s.updRxp k p (fun x => { x with threshold := v, above := decide (v ≤ x.level) })

/-- The tokens of a port in flight leave rs to the next token (R388), and what is being received at a flush yields no item
(R384). -/
def markTokens (n i : Nat) (flushed keepRs : Bool) (s : State) : State :=
  let f := fun (t : Txn) => if t.xfer = some i then { t with flushed := t.flushed || flushed, keepRs := t.keepRs || keepRs } else t
  s.updTrk n (fun t => { t with slots := t.slots.map f, relayed := t.relayed.map f })

/-- `RXP_CTRL.flush` (R384): `receiving` tells that the line port is receiving a packet for the port at that moment. -/
def flushOp (k p : Nat) (receiving : Bool) (s : State) : State :=
  let x := s.rxp k p
  if !s.portAccess k || x.state == .closed then s
  else
    let s := flushPort k p s
    match x.xfer with
    | some i => if receiving then markTokens (s.ctx x.ctx).trunk i true false s else s
    | none => s

/-- The reset of a queue (R388, R389), once the sweep may run (R401). -/
def queueReset (q : QueueId) (ecc : Bool) (s : State) : State :=
  let count := fun (s : State) => { s with cells := if ecc then { s.cells with eccResets := satAdd 0xFFFF s.cells.eccResets 1 }
    else { s.cells with mismatch := satAdd 0xFFFF s.cells.mismatch 1 } }
  if s.masked 0 11 then s
  else match q with
  | .transfer i => match s.xfer i with
    | none => s
    | some x =>
      if x.ended || !x.queue || !x.fromRing then s
      else
        let s := endXfer i stAborted (count s)
        let s := match x.ctx with
          | some c => if x.op = .bulkOut ∨ x.op = .bulkIn ∨ x.op = .oneOut then
              s.updCtx c (fun c => { c with rsNext := true }) else s
          | none => s
        raiseBoth x.crew .cellQueueReset x.trunk (x.ctx.getD 0 + bit ecc * 65536) s
  | .port k p =>
    let x := s.rxp k p
    if x.state = .closed then s
    else
      let c := s.ctx x.ctx
      let s := flushPort k p (count s)
      let s := match x.xfer with | some i => markTokens c.trunk i false true s | none => s
      raiseBoth k .cellQueueReset c.trunk (x.ctx + 16384 + bit ecc * 65536 + p * 131072)
        (s.updCtx x.ctx (fun c => { c with rsNext := true }))

/-- `RXP_OPEN` (R378). -/
def execRxpOpen (crew : Fin 64) (port : Fin 4) (s : State) : Host.Outcome State Fault Refusal :=
  finish (openPort crew port s)
/-- `RXP_CLOSE` (R385). -/
def execRxpClose (crew : Fin 64) (port : Fin 4) (s : State) : Host.Outcome State Fault Refusal :=
  finish (if s.portAccess crew then closePort crew port s else s)
/-- `RXP_FLUSH` (R384). -/
def execRxpFlush (crew : Fin 64) (port : FlushPort) (s : State) : Host.Outcome State Fault Refusal :=
  finish (flushOp crew port.port port.receiving s)
/-- `RXP_POP` (R382). -/
def execRxpPop (crew : Fin 64) (port : Fin 4) (s : State) : Host.Outcome State Fault Refusal :=
  finish (popPort crew port s)
/-- `POP_TIMEOUT` (R383). -/
def execPopTimeout (crew : Fin 64) (port : Fin 4) (s : State) : Host.Outcome State Fault Refusal :=
  finish (if 0 < (s.rxp crew port).waitPops then
      emit (.popReply crew port 0) (s.updRxp crew port (fun x =>
        { x with waitPops := x.waitPops - 1, emptyPops := satAdd 0xFFFF x.emptyPops 1 }))
    else s)
/-- `RXP_THRESHOLD_WRITE` (R381). -/
def execRxpThresholdWrite (crew : Fin 64) (port : Fin 4) (value : Nat) (s : State) : Host.Outcome State Fault Refusal :=
  finish (if s.portAccess crew then setThreshold crew (rxpWinOffset crew port) crew port (value % 8192) s else s)
/-- `CELL_QUEUE_RESET` (R388). -/
def execCellQueueReset (queue : QueueId) (ecc : Bool) (s : State) : Host.Outcome State Fault Refusal :=
  finish (queueReset queue ecc s)

end Sys2Proof.Machine
end

