-- ==== Sys2Proof/Machine/Cox.lean ====
section
/-! DEFINITION. The cox engine: forming transactions, choosing and issuing them (R164 to R171, R185 to R187,
R234, R235, R244 to R255, R309, R315, R366, R375, R446, R464). -/

namespace Sys2Proof.Machine

/-! Quantities of a transaction (R159, R234). -/

/-- The rate a trunk's transactions run at: the new one while a rate change is confirmed (Table 5.13). -/
def Trk.rateNow (t : Trk) : Nat := if t.state = .rateChange then t.rate else t.rateEff
/-- The longest packet of the EP0 of an address: its map's, or 64 where no map is known. -/
def State.ep0Max (s : State) (n a : Nat) : Nat :=
  match s.entryOf n a with
  | some (_, e) => if e.epmap.isEmpty then 64 else max 1 (min 64 (epMax e.epmap 0))
  | none => 64
/-- The longest packet of a transfer's endpoint. -/
def State.xferMax (s : State) (x : Xfer) : Nat :=
  match x.ctx with
  | some c => max 1 (s.ctx c).longest
  | none => s.ep0Max x.trunk x.addr
/-- The longest packet the answer of a transaction may hold: none in a status stage. -/
def State.answerMax (s : State) (t : Txn) : Nat :=
  match t.purpose with
  | .relay _ m => m
  | _ => match t.xfer.bind s.xfer with
    | some x => if x.op = .control ∧ x.stage = .status then 0 else s.xferMax x
    | none => match t.ctx with | some c => (s.ctx c).longest | none => 64
/-- Hop count of a transaction; the number of hubs for a BCAST (R171). -/
def State.hopFor (s : State) (n : Nat) (t : Txn) : Nat :=
  if hasUp t.kind then max 1 (s.hopOf n t.hub)
  else max (s.hubCount n) (if (s.trk n).tailLearnt then (s.trk n).tailN else 0)
/-- The quantities of a transaction on trunk `n`. -/
def State.quant (s : State) (n : Nat) (t : Txn) : Quant :=
  quantities (s.trk n).rateNow (s.dtx n) (s.answerMax t) (s.hopFor n t) t.kind

/-- The instant in the frame, in 0.1 µs: no transaction is issued at an offset already past.  In the frame after a time
step (R422) it is a lower bound. -/
def State.nowOff (s : State) : Nat := ceilDiv (s.tim.ns + nsPerFrame - s.tim.nextBoundary) 100

/-- The earliest placement from the end of the previous downstream occupancy and not in the past (R245, R247), and
whether the slots made it wait (R251). -/
def State.placeNow (s : State) (n : Nat) (q : Quant) (up : Bool) (lim : Nat) : Option Nat × Bool :=
  let t := s.trk n
  if 32 ≤ t.slots.length then (none, true)
  else
    let from' := max t.nextOff s.nowOff
    let o := firstOff (fitsAt t.resv q up) q.d lim 9701 from'
    (o, decide (32 ≤ t.resv.length) && o != firstOff (clearAt t.resv q up) q.d lim 9701 from')

/-- The lowest slot number not held. -/
def Trk.freeSlot (t : Trk) : Option Nat := (List.range 32).find? (fun i => t.slots.all (fun x => x.slot != i))

/-- Issue a transaction at offset `o`: it takes a slot and its packets leave (R26, R235). -/
def launch (n : Nat) (t : Txn) (o : Nat) (planned : Bool) (s : State) : State :=
  match (s.trk n).freeSlot with
  | none => s
  | some i =>
    let q := s.quant n t
    let y := { t with slot := i, off := o, d := q.d, e := q.e, b := q.b, cost := q.cost, hop := s.hopFor n t }
    let s := s.updTrk n (fun k =>
      { k with slots := k.slots ++ [y], peakNow := max k.peakNow (k.slots.length + 1),
               resv := k.resv ++ [q.resv o (hasUp t.kind) none],
               nextOff := if planned then k.nextOff else o + q.d })
    (txnPackets t).foldl (fun s p => emit (.packet n (linePkt (hdrBytes p.1) p.2)) s) s

/-! What may go out under the allowance (R51, R446). -/

/-- A packet is listed in an allowance. -/
def allowHas (l : List CatchEntry) (n : Nat) (p : BitVec 32 × List Byte) : Bool :=
  l.any (fun e => match e with
    | .allow tr a ep ty sq te _ aux _ b => tr == n && a == hdrAddr p.1 && ep == hdrEp p.1 && ty == hdrType p.1
        && sq == hdrSq p.1 && te == hdrTe p.1 && aux == hdrAux p.1 && b == p.2
    | _ => false)
/-- The transaction sends OUT packets (R446). -/
def isOutKind : TxnKind → Bool
  | .dataP _ _ => true
  | .dataB _ => true
  | .setup _ _ => true
  | .bcast _ _ => true
  | _ => false
/-- On a pair-fed trunk of a MIRRORED active unit an OUT packet waits for its allowance (R51, R440). -/
def State.allowed (s : State) (n : Nat) (t : Txn) : Bool :=
  !(isOutKind t.kind && s.pairFed n && s.tdm.active && s.tdm.pair == .mirrored)
    || (txnPackets t).all (allowHas s.tdm.allow n)

/-! Who is busy (R187, R309, R315). -/

/-- Every transaction of a trunk that has not settled. -/
def Trk.inFlight (t : Trk) : List Txn := t.slots ++ t.exhausted ++ t.relayed
/-- A transaction of context `c` is in flight. -/
def State.ctxBusy (s : State) (n c : Nat) : Bool := (s.trk n).inFlight.any (fun t => t.ctx == some c)
/-- The endpoints that a standard request affects (R187). -/
def affects (setup : List Byte) (ep : Nat) : Bool :=
  isStd setup 3 || (isStd setup 5 && decide (1 ≤ ep)) || ((isStd setup 7 || isStd setup 8) && leAt setup 4 2 == ep)
/-- A running request keeps transactions off an endpoint (R187). -/
def State.blocked (s : State) (n a ep : Nat) (but : Option Nat) : Bool :=
  s.xfers.any (fun y => y.2.trunk == n && y.2.addr == a && y.2.op == .control && y.2.tagged && !y.2.ended
    && but != some y.1 && affects y.2.setup ep)
/-- An affected endpoint still has a transaction in flight (R187); a BCAST is none (DESIGN CHOICE, log 74). -/
def State.affectedBusy (s : State) (x : Xfer) : Bool :=
  (s.trk x.trunk).inFlight.any (fun t => hasUp t.kind && t.addr == x.addr && affects x.setup t.ep)

/-- A transfer's line work is not over. -/
def Xfer.open (x : Xfer) : Bool := !x.ended && x.fin.isNone
/-- It waits at the cox engine of trunk `n`. -/
def Xfer.waits (x : Xfer) (n : Nat) : Bool := x.trunk == n && x.open && x.ready && x.stopping.isNone
/-- An earlier transfer to the same endpoint is still open (R185, R315). -/
def State.behindOther (s : State) (i : Nat) (x : Xfer) : Bool :=
  x.op != .bcast && s.xfers.any (fun y => y.1 != i && y.2.open && y.2.trunk == x.trunk && y.2.op != .bcast
    && y.2.addr == x.addr && y.2.ep == x.ep && decide (y.2.seq < x.seq))

/-- Position of a transfer's target. -/
def State.hubOf (s : State) (x : Xfer) : Nat :=
  match x.origin with
  | .ctl _ => x.hub
  | _ => ((s.entryOf x.trunk x.addr).map (fun e => e.2.hub)).getD 0

/-- A transfer's endpoint answered NAK in this frame (R248). -/
def State.nakked (s : State) (x : Xfer) : Bool :=
  x.nakFrame == some s.frame || (match x.ctx with | some c => (s.ctx c).nakFrame == some s.frame | none => false)

/-- The tag a control transfer carries (R170). -/
def State.tagFor (s : State) (x : Xfer) : Nat :=
  if x.tagged then x.tag
  else if x.addr = 0 then ((s.trk x.trunk).attach.map (·.tag)).getD 0
  else ((s.entryOf x.trunk x.addr).map (fun e => e.2.tag)).getD 0

/-! Forming the next transaction of a transfer. -/

/-- Credits for `c` packets of IN data can be taken (R375). -/
def State.inRoom (s : State) (x : Xfer) (cells : Nat) : Bool :=
  match x.origin with
  | .port k p =>
    let y := s.rxp k p
    !y.ptrs.broken && decide (y.level + x.credits + cells ≤ y.window) && decide (s.cellsHeld k + cells ≤ s.cellQuota k)
  | .ctl _ => true
  | .ring _ _ _ => s.creditOk x cells

/-- The bytes of the next packet of a control OUT data stage, where they are there (R375). -/
def State.outChunk (s : State) (x : Xfer) : Option (List Byte) :=
  match x.origin with
  | .ctl _ => some (slice ((x.items.map (·.data)).flatten) x.bytes (s.xferMax x))
  | _ => x.items.head?.map (·.data)

/-- The stage of a control transfer as a transaction (R169). -/
def State.controlKind (s : State) (x : Xfer) : Option TxnKind :=
  match x.stage with
  | .setup => if !x.tagged && s.affectedBusy x then none else some (.setup (s.tagFor x) x.setup)
  | .data =>
    if setupIn x.setup then (if s.inRoom x (cellsFor (s.xferMax x)) then some (.tokenP x.e) else none)
    else (s.outChunk x).map (fun b => .dataP x.t b)
  | .status => some (if setupIn x.setup && decide (0 < x.length) then .dataP true [] else .tokenP true)

/-- The sequence numbers of a bulk OUT transfer in flight. -/
def State.seqsInFlight (s : State) (i n : Nat) : List Nat :=
  (s.trk n).inFlight.flatMap (fun t =>
    if t.xfer = some i then (match t.kind with | .dataB ps => ps.map (·.1) | _ => []) else [])
/-- The bursts a bulk OUT transfer may send next, largest first: from its first packet that is neither
acknowledged nor in flight, within the eight from the oldest unacknowledged (R164, R250, R375). -/
def State.burstKinds (s : State) (i : Nat) (x : Xfer) : List (Nat × TxnKind) :=
  let c := (x.ctx.map s.ctx).getD {}
  let busy := s.seqsInFlight i x.trunk
  let free := fun (j : Nat) => match x.items[j]? with
    | some it => !it.acked && !busy.contains ((c.outOld + j) % 16)
    | none => false
  match (List.range 8).find? free with
  | none => []
  | some j0 =>
    let run := ((List.range (8 - j0)).takeWhile (fun d => free (j0 + d))).length
    ((List.range run).reverse).map (fun m =>
      (j0, .dataB ((List.range (m + 1)).map (fun d =>
        let it := x.items.getD (j0 + d) { data := [] }
        ((c.outOld + j0 + d) % 16, it.te, it.data)))))
/-- The tokens a bulk IN transfer may send next, largest first (R250, R375). -/
def State.tokenKinds (s : State) (x : Xfer) : List TxnKind :=
  let c := (x.ctx.map s.ctx).getD {}
  (((List.range 8).reverse.map (· + 1)).filter (fun m => s.inRoom x (m * cellsFor (s.xferMax x)))).map
    (fun m => .tokenB c.inE m)

/-- The transactions a transfer could issue now, but for the allowance and the room on the line; the largest
first (R250). -/
def State.formXfer (s : State) (i : Nat) (x : Xfer) : List Txn :=
  let c := (x.ctx.map s.ctx).getD {}
  let mk := fun (rs : Bool) (k : TxnKind) =>
    ({ slot := 0, kind := k, purpose := .transfer, addr := x.addr, ep := x.ep, hub := s.hubOf x, hop := 0,
       ctx := x.ctx, xfer := some i, crew := x.crew, attempt := x.attempts + 1, rs := rs } : Txn)
  let burst := fun (k : Nat × TxnKind) =>
    { mk (c.rsNext && k.1 == 0) k.2 with
        attempt := 1 + (((x.items.drop k.1).take (match k.2 with | .dataB ps => ps.length | _ => 0)).map (·.tries)).foldl max 0 }
  match x.op with
  | .control => (s.controlKind x).toList.map (mk false)
  | .bulkOut => (s.burstKinds i x).map burst
  | .bulkIn => (s.tokenKinds x).map (mk c.rsNext)
  | .oneOut => (x.items.head?.toList).map (fun it => mk c.rsNext (.dataP c.t it.data))
  | .bcast => (x.items.head?.toList).map (fun it =>
      mk false (.bcast (x.bseq.getD (Tab.get 0 (s.trk x.trunk).bseq x.ep)) it.data))
  | .nop => []

/-- A transfer's next packet lies in cells that the line port cannot read: its access to them is masked, or the queue has
been stopped (R372, R401). -/
def State.cellsShut (s : State) (n : Nat) (x : Xfer) : Bool :=
  x.ptrs.broken || (x.fromRing && !x.items.isEmpty && !x.isIn && s.masked 0 n)

/-- A transfer is issuable as far as its endpoint goes (R187, R189, R248, R309, R315, R377, R385, R390). -/
def State.xferFree (s : State) (n i : Nat) (x : Xfer) : Bool :=
  let c := (x.ctx.map s.ctx).getD {}
  let portOpen := match x.origin with | .port k p => (s.rxp k p).state == .open | _ => true
  let busy := s.inSlot i n
  x.waits n && portOpen && !s.nakked x && !(x.op != .control && c.halted) && !s.behindOther i x && !s.cellsShut n x
    && (!x.hasData || x.queue) && (x.op == .bulkOut || !busy)
    && !(x.op == .oneOut && ((match x.ctx with | some k => s.ctxBusy n k | none => false) || c.occ.waiting))
    && (x.op == .bcast || !s.blocked n x.addr x.ep (some i))
    && (match s.targetOf x with
        | (.ok, att) => att
        | (.farSide, att) => att && s.tdm.active
        | _ => false)

/-- The next transactions of a transfer, largest first. -/
def State.xferTxns (s : State) (n i : Nat) : List Txn :=
  match s.xfer i with
  | none => []
  | some x => if s.xferFree n i x then (s.formXfer i x).filter (s.allowed n) else []

/-! Occurrences (R252 to R255, R365 to R367). -/

/-- The copy that the line port holds: it goes before any newer staged data (R163, R367). -/
def Epm.held (e : Epm) : Option (List Byte) := e.pending <|> e.copy
/-- What an OUT occurrence would send (R163, R366, R367). -/
def Epm.outData (e : Epm) : Option (List Byte) :=
  match e.held with
  | some b => some b
  | none => match e.state with
    | .full => some e.data
    | .used => if e.repeats.inForce then some e.data else none
    | .never => none
/-- The buffer policy permits the poll (R252, R365, R366). -/
def Ctx.permits (x : Ctx) : Bool :=
  if x.kind = 1 then !(x.epm.state == .full && x.epm.withhold.inForce) else x.epm.outData.isSome
/-- The toggle an occurrence carries: that of its offset or first attempt, otherwise the context's (R163, R254). -/
def Ctx.occT (x : Ctx) : Bool := x.occ.tg.getD (if x.kind = 1 then x.e else x.t)
/-- A ONE_OUT of the context was issued first and has not ended (R309). -/
def State.oneFirst (s : State) (c : Nat) : Bool :=
  s.xfers.any (fun y => y.2.op == .oneOut && y.2.open && y.2.ctx == some c && decide (0 < y.2.attempts))
/-- The transaction of an occurrence of context `c`. -/
def State.occTxn (s : State) (c : Nat) : Option Txn :=
  let x := s.ctx c
  let hub := ((s.entry x.entry).map (·.hub)).getD 0
  let mk := fun (k : TxnKind) =>
    ({ slot := 0, kind := k, purpose := .occurrence, addr := x.addr, ep := x.ep, hub := hub, hop := 0, ctx := some c,
       crew := x.owner, attempt := x.occ.attempts + 1, rs := x.rsNext } : Txn)
  if x.kind = 1 then some (mk (.tokenP x.occT))
  else if x.occ.waiting then some (mk (.dataP x.occT x.occ.bytes))
  else x.epm.outData.map (fun b => mk (.dataP x.occT b))
/-- Where the node of a context is. -/
def State.ctxReach (s : State) (c : Nat) : Reach × Bool :=
  let x := s.ctx c
  match s.entry x.entry with
  | some e => (s.reach x.trunk e.hub e.port, e.attached)
  | none => (.ok, false)
/-- The retry or late issue of an occurrence, where it may go now. -/
def State.occTxns (s : State) (n c : Nat) : List Txn :=
  let x := s.ctx c
  if x.used && !x.halted && s.ctxReach c == (.ok, true) && !s.ctxBusy n c && !s.oneFirst c
      && !s.blocked n x.addr x.ep none then
    (s.occTxn c).toList.filter (s.allowed n)
  else []

/-! A crew's turn (R244 to R248). -/

/-- A piece of work of a crew. -/
inductive Work where
  | xfer (i : Nat)
  | occ (c : Nat)
  deriving DecidableEq, Repr

/-- The waiting transfers of a crew that pass a test, in the order in which they took their contexts. -/
def State.queueOf (s : State) (n k : Nat) (p : Xfer → Bool) : List Work :=
  (inSeq (s.xfers.filter (fun x => x.2.crew == k && x.2.waits n && p x.2))).map (fun x => .xfer x.1)
/-- The occurrences of a crew that pass a test, by context. -/
def State.occsOf (s : State) (n k : Nat) (p : Occ → Bool) : List Work :=
  (s.ctxs.filter (fun c => c.2.used && c.2.trunk == n && c.2.owner == k && p c.2.occ)).map (fun c => .occ c.1)
/-- A crew's work in the order of R248. -/
def State.workOf (s : State) (n k : Nat) (urgentOnly : Bool) : List Work :=
  s.queueOf n k (·.urgent) ++ if urgentOnly then [] else
    s.occsOf n k (·.waiting) ++ s.occsOf n k (·.late)
      ++ s.queueOf n k (fun x => !x.urgent && (x.op == .control || x.op == .oneOut))
      ++ s.queueOf n k (fun x => !x.urgent && (x.op == .bulkOut || x.op == .bulkIn))
/-- The transactions of a piece of work. -/
def State.txnsOf (s : State) (n : Nat) : Work → List Txn
  | .xfer i => s.xferTxns n i
  | .occ c => s.occTxns n c
/-- The next transaction of a crew, its sizes largest first: the first issuable one in order (R250). -/
def State.nextOf (s : State) (n k : Nat) (urgentOnly : Bool) : List Txn :=
  ((s.workOf n k urgentOnly).map (s.txnsOf n)).find? (fun l => !l.isEmpty) |>.getD []
/-- A crew has work waiting on the trunk (R246). -/
def State.hasWork (s : State) (n k : Nat) : Bool := !(s.workOf n k false).isEmpty

/-- A target is driven by the partner of a split trunk (R463). -/
def State.isFar (s : State) (n hub : Nat) : Bool :=
  let t := s.trk n
  t.mode != .whole && s.tdm.active && decide (t.splitK < s.hopOf n hub)

/-- The choice among the sizes of a transaction: the transaction with its offset, none for a relay. -/
structure Choice where
  pick : Option (Txn × Option Nat) := none
  slotWait : Bool := false
  relayWait : Bool := false
  /-- It found all 32 line slots held: it keeps its place until one frees (R251, R259). -/
  full : Bool := false

/-- The first size whose cost is within the credit and that fits (R245, R247, R250, R465). -/
def State.choose (s : State) (n lim : Nat) (credit : Option Nat) : List Txn → Choice
  | [] => {}
  | t :: rest =>
    let q := s.quant n t
    if (match credit with | some v => decide (v < q.cost) | none => false) then s.choose n lim credit rest
    else if s.isFar n t.hub then
      if (s.trk n).relayed.length < 16 then { pick := some (t, none) } else { relayWait := true }
    else if 32 ≤ (s.trk n).slots.length then { slotWait := true, full := true }
    else match s.placeNow n q (hasUp t.kind) lim with
    | (some o, w) => { pick := some (t, some o), slotWait := w }
    | (none, w) => let r := s.choose n lim credit rest; { r with slotWait := r.slotWait || w }

/-! Effects of an issue. -/

/-- A relay request leaves for the partner (R464). -/
def relayOut (n : Nat) (t : Txn) (s : State) : State :=
  let id := ((List.range 16).find? (fun i => (s.trk n).relayed.all (fun x => x.slot != i))).getD 0
  let urgent := match t.xfer.bind s.xfer with | some x => x.urgent | none => false
  let len := ((txnPackets t).map (·.2.length)).sum
  sendMsg .relay (relayLen len) (.tdmRelay ⟨Fin.ofNat 8 n, id, urgent, t.kind, t.addr, t.ep, t.hub, t.rs, s.answerMax t⟩)
    (s.updTrk n (fun k => { k with relayed := k.relayed ++ [{ t with slot := id, hop := s.hopFor n t }] }))

/-- Mark items of a bulk OUT transfer as sent. -/
def markSent (c : Ctx) (seqs : List Nat) (items : List Item) : List Item :=
  items.zipIdx.map (fun p =>
    let q := (c.outOld + p.2) % 16
    if seqs.contains q && decide (p.2 < 8) then { p.1 with seq := some q } else p.1)

/-- The SETUP of a SUSPEND request goes out: its targets get no transaction from here on (R217). -/
def suspendSent (x : Xfer) (s : State) : State :=
  match x.origin, s.ros.run with
  | .ctl .rosCmd, some r =>
    if r.op = 5 ∧ byteAt x.setup 0 = 0x03 then
      let sent : Sleep → Sleep := fun v => if v = .asked false then .asked true else v
      s.updTrk r.trunk (·.updHub r.hub (fun h =>
        if r.port = 16 then { h with far := sent h.far }
        else { h with ports := Tab.upd .awake r.port sent h.ports }))
    else s
  | _, _ => s

/-- What issuing a transfer's transaction does to the transfer (R164, R170, R171, R375). -/
def issueXfer (i : Nat) (t : Txn) (s : State) : State :=
  match s.xfer i with
  | none => s
  | some x =>
    match t.kind with
    | .setup _ _ => suspendSent x (giveTag i s)
    | .bcast q _ =>
      if x.bseq.isSome then s
      else (s.setXfer i { x with bseq := some q }).updTrk x.trunk (fun k =>
        { k with bseq := Tab.put 0 x.ep ((q + 1) % 256) k.bseq })
    | .tokenB _ m => s.setXfer i { x with credits := x.credits + m * cellsFor (s.xferMax x) }
    | .tokenP _ => if x.op = .control ∧ x.stage = .data ∧ x.fromRing then
        s.setXfer i { x with credits := x.credits + cellsFor (s.xferMax x) } else s
    | .dataB ps =>
      let c := (x.ctx.map s.ctx).getD {}
      let items := markSent c (ps.map (·.1)) x.items
      let sent := (items.filter (fun it => it.seq.isSome)).length
      let s := s.setXfer i { x with items := items }
      match x.ctx with
      | some k => s.updCtx k (fun c => { c with outNext := (c.outOld + sent) % 16 })
      | none => s
    | _ => s

/-- `COX_CREW_STAT` of crew `k` on trunk `n`. -/
def updStat (n k : Nat) (f : CoxStat → CoxStat) (s : State) : State :=
  s.updCrew k (fun c => { c with stat := Tab.upd {} n f c.stat })

/-- What issuing an attempt of an occurrence does (R253, R366, R367). -/
def issueOcc (c : Nat) (t : Txn) (s : State) : State :=
  let x := s.ctx c
  let s := if x.occ.late then updStat x.trunk x.owner (fun v => { v with late := satAdd 0xFFFF v.late 1 }) s else s
  let bytes := match t.kind with | .dataP _ b => b | _ => []
  s.updCtx c (fun x => { x with
    occ := { x.occ with late := false, waiting := false, bytes := bytes, tg := some x.occT },
    epm := if x.kind = 2 ∧ x.occ.attempts = 0 ∧ x.epm.held = none then { x.epm with newer := false } else x.epm })

/-- Issue a chosen transaction. -/
def issue (n : Nat) (t : Txn) (o : Option Nat) (s : State) : State :=
  let go := fun (s : State) => match o with
    | some v => launch n t v false s
    | none => relayOut n t s
  match t.xfer, t.purpose, t.ctx with
  | some i, _, _ => issueXfer i t (go s)
  | none, .occurrence, some c => issueOcc c t (go s)
  | none, _, _ => go s

/-- How a crew's turn ended: it issued at a cost, it passes, or it waits for a line slot and keeps its place. -/
inductive Turn where
  | issued (cost : Nat)
  | passes
  | waits
  deriving DecidableEq, Repr

/-- A crew's turn: its cost where it issued, and what it found waiting (R245, R247, R251, R465). -/
def crewTurn (n k lim : Nat) (credit : Option Nat) (urgentOnly : Bool) (s : State) : Turn × State :=
  let c := s.choose n lim credit (s.nextOf n k urgentOnly)
  let s := if c.slotWait || c.relayWait then s.updTrk n (fun t =>
      { t with slotWaited := t.slotWaited || c.slotWait, relayWaited := t.relayWaited || c.relayWait }) else s
  match c.pick with
  | none => (if c.full then .waits else .passes, s)
  | some (t, o) => (.issued (s.quant n t).cost, issue n t o s)

end Sys2Proof.Machine
end

