-- ==== Sys2Proof/Machine/Rx.lean ====
section
/-! DEFINITION. Responses: their classes, what each one does, budgets and retries (R159 to R170, R189, R253 to
R256, R364, R374 to R376, R390, R459, R464). -/

namespace Sys2Proof.Machine

/-! Classes of a received packet (Table 5.15). -/

/-- What a received packet is to its transaction. -/
inductive RxClass where
  | good
  | bad (e : LineErr)
  | mismatch
  deriving DecidableEq, Repr

/-- The types a transaction may be answered with (Table 5.3). -/
def answers : TxnKind → List Nat
  | .tokenP _ => [ptDataP, ptNak, ptStall]
  | .tokenB _ _ => [ptDataB, ptNak, ptStall]
  | .dataP _ _ => [ptAck, ptNak, ptStall]
  | .dataB _ => [ptBurstAck, ptNak, ptStall]
  | .setup _ _ => [ptAck]
  | .hopReq _ => [ptHopRsp]
  | .claim _ _ => [ptClaim]
  | .bcast _ _ => []
/-- The answer carries what its request asks it to repeat (R175, R199). -/
def echoes (t : Txn) (p : RxPkt) : Bool :=
  match t.kind with
  | .hopReq e => hdrAux p.hdr == e
  | .claim e a => p.payload == [BitVec.ofNat 8 e, BitVec.ofNat 8 a, 0, 0]
  | _ => true
/-- A transaction's data go into cells (R376): bulk and control IN data of a ring's or a port's transfer. -/
def State.toCells (s : State) (t : Txn) : Bool :=
  match t.purpose, t.xfer.bind s.xfer with
  | .transfer, some x => (match x.origin with | .ctl _ => false | _ => true)
      && (match t.kind with | .tokenB _ _ => true | .tokenP _ => x.op == .control && x.stage == .data | _ => false)
  | _, _ => false
/-- Classify a packet received for a transaction (R184, R189).  A masked line port cannot store IN packets: each is a length
error (R401). -/
def State.judge (s : State) (n : Nat) (t : Txn) (p : RxPkt) : RxClass :=
  match pktError p with
  | some e => .bad e
  | none =>
    if hdrAddr p.hdr ≠ t.addr ∨ hdrEp p.hdr ≠ t.ep then .mismatch
    else if !(answers t.kind).contains (hdrType p.hdr) || !echoes t p then .bad .other
    else if carriesData (hdrType p.hdr) && (tooLong p (s.answerMax t) || (s.toCells t && s.masked 0 n)) then .bad .framing
    else .good

/-! Slots and counters. -/

/-- A transaction counts as an exchange (R476): not a BCAST, a walk's HOP_REQ or a probe's read. -/
def State.isExchange (s : State) (t : Txn) : Bool :=
  let probe := match t.xfer.bind s.xfer with
    | some x => (match x.origin with | .ctl (.prune _ _) => byteAt x.setup 0 == 0x09 | _ => false)
    | none => false
  hasUp t.kind && t.purpose != .walk && !probe
/-- A hub answers a packet sent after its status DATA_P: it has acted on its port request (R169). -/
def actedBy (t : Txn) (good : Bool) (l : List (Nat × List Nat)) : List (Nat × List Nat) :=
  (l.filter (fun u => !(good && u.1 == t.addr && !u.2.contains t.slot))).map
    (fun u => if u.1 = t.addr then (u.1, u.2.filter (· ≠ t.slot)) else u)
/-- Record how an exchange ended (R477). -/
def noteExchange (n : Nat) (t : Txn) (good : Bool) (s : State) : State :=
  if s.isExchange t then
    s.updTrk n (fun k => { k with exchanges := k.exchanges ++ [⟨t.hop, good⟩], unacted := actedBy t good k.unacted })
  else s
/-- A transaction leaves its slot. -/
def freeSlot (n : Nat) (t : Txn) (s : State) : State :=
  let s := s.updTrk n (fun k => { k with slots := k.slots.filter (fun x => x.slot != t.slot) })
  if hasUp t.kind then s else bcastSettle t.crew s
/-- `TRK_STAT_LINE` and `TRK_STAT_RESP` (Table 5.16). -/
def countErr (n : Nat) (e : LineErr) (s : State) : State :=
  s.updTrk n (fun k => match e with
    | .crc => { k with crcErr := satAdd 0xFFFF k.crcErr 1 }
    | .framing => { k with framingErr := satAdd 0xFFFF k.framingErr 1 }
    | .timeout => { k with timeouts := satAdd 0xFFFF k.timeouts 1 }
    | .other => k)
/-- A toggle or sequence out of step (Table 5.15). -/
def resync (n : Nat) (t : Txn) (s : State) : State :=
  raise 0 .lineToggleResync n (t.ctx.getD 0) (s.updTrk n (fun k => { k with resyncs := satAdd 0xFFFF k.resyncs 1 }))

/-! Transfers. -/

/-- GET_HUB_STATUS of a probe (R483): link up, bit 6 of port 16's byte. -/
def probeAnswer (n h : Nat) (b : List Byte) (s : State) : State :=
  s.updTrk n (·.updHub h (fun x => { x with probeUp := byteAt b 19 / 64 % 2 == 1 }))
/-- Part of the controller that waits for a control transfer goes on. -/
def ctlGoesOn (use : CtlUse) (st : Nat) (b : List Byte) (s : State) : State :=
  match use with
  | .rosCmd => rosProgress s
  | .status n h => if isSuccess st then hubStatus n h b s else s
  | .prune n h => if isSuccess st && decide (20 ≤ b.length) then probeAnswer n h b s else s
  | _ => s
/-- A transfer's line work ends with a status, which a reset under way overrides (R66). -/
def lineDone (i st : Nat) (s : State) : State :=
  match s.xfer i with
  | none => s
  | some x =>
    let st := if x.stopping = some stCrewReset then stCrewReset else st
    let s := finishLine i st s
    match x.origin with
    | .ctl use => ctlGoesOn use st x.dataIn s
    | _ => s
/-- After a transaction: credits not used go back, a stopped transfer ends, a closing port closes. -/
def afterTxn (i : Nat) (s : State) : State :=
  match s.xfer i with
  | none => s
  | some x =>
    let s := if x.isIn then s.setXfer i { x with credits := 0 } else s
    match x.origin, x.stopping with
    | .port k p, _ => closePortDone k p s
    | _, some st => if x.open then lineDone i st s else s
    | _, none => s
/-- Accepted data or an acknowledgement (R316). -/
def progress (i : Nat) (s : State) : State :=
  s.updXfer i (fun x => { x with naks := 0, progFrame := some s.frame, attempts := 0 })

/-- A port whose endpoint has been cleared of its halt is polled again (R390). -/
def reopenPort (n a ep : Nat) (s : State) : State :=
  match s.ctxOf n a ep with
  | none => s
  | some c => match (s.ctx c).port with
    | some k => s.updRxp (s.ctx c).owner k (fun y => if y.state = .stalled then { y with state := .open } else y)
    | none => s

/-- A standard request's status stage has succeeded (Table 5.9, Table 5.10, R206, R390). -/
def applyStd (x : Xfer) (s : State) : State :=
  let idx := leAt x.setup 4 2
  let start := fun (p : Ctx → Bool) (s : State) =>
    updCtxs (fun _ c => c.used && c.trunk == x.trunk && c.addr == x.addr && p c) Ctx.start s
  if isStd x.setup 3 then start (fun _ => true) s
  else if isStd x.setup 5 then
    let s := match s.entryOf x.trunk x.addr with
      | some (j, e) => s.setEntry j { e with config := x.dataIn, configValid := true }
      | none => s
    start (fun c => decide (1 ≤ c.ep)) s
  else if isStd x.setup 7 then reopenPort x.trunk x.addr idx (start (fun c => c.ep == idx) s)
  else if isStd x.setup 8 then
    updCtxs (fun _ c => c.used && c.trunk == x.trunk && c.addr == x.addr && c.ep == idx) (fun c => { c with halted := true }) s
  else if isStd x.setup 9 then
    let v := leAt x.setup 2 2
    match s.entryOf x.trunk x.addr with
    | none => s
    | some (j, e) =>
      let s := s.setEntry j { e with wake := v == 1 }
      match x.origin with
      | .ring _ _ _ => if e.port = 0 then s
          else hubRequest x.trunk e.hub (.wakeMask x.trunk e.hub e.port) 0x08 e.port v s
      | _ => s
  else s

/-- The status stage of a control transfer has succeeded (R169, Table 0.5). -/
def controlDone (i : Nat) (s : State) : State :=
  match s.xfer i with
  | none => s
  | some x =>
    let s := match s.entryOf x.trunk x.addr with
      | some (j, e) => s.setEntry j { e with acted := true }
      | none => s
    let short := setupIn x.setup && decide (x.dataIn.length < x.length)
    lineDone i (if short then stShort else stOk) (applyStd x s)

/-- IN data are written into cells and enter a transfer's queue as an item (R371, R376). -/
def commitIn (i : Nat) (b : List Byte) (te : Bool) (s : State) : State :=
  match s.xfer i with
  | none => s
  | some x =>
    let (cells, s) := takeCells x.crew x.tagOf (cellsFor b.length) s
    let it : Item := { data := b, te := te, cells := cells, len := b.length }
    match x.origin with
    | .port k p => commitItem k p it (s.setXfer i { x with credits := x.credits - cells.length })
    | .ring _ _ _ => commitTo i it (s.setXfer i { x with got := x.got + b.length, credits := x.credits - cells.length })
    | .ctl _ => s

/-- The cells that a discarded IN packet had been written into, as far as there was credit, are released and zeroed (R376,
R384). -/
def wasteCells (t : Txn) (b : List Byte) (s : State) : State :=
  match t.xfer.bind s.xfer with
  | some x =>
    if s.toCells t then
      let (cells, s) := takeCells x.crew x.tagOf (min x.credits (cellsFor b.length)) s
      releaseCells cells s
    else s
  | none => s

/-- The first items of a transfer that are acknowledged leave it. -/
def dropAcked : List Item → List Item
  | [] => []
  | it :: t => if it.acked then dropAcked t else it :: t

/-- Acknowledge the items of a bulk OUT transfer that meet a test on their place (R165, R374). -/
def ackItems (i : Nat) (p : Nat → Bool) (s : State) : State :=
  match s.xfer i with
  | none => s
  | some x =>
    let hit := fun (j : Nat) (it : Item) => !it.acked && p j
    let gone := (x.items.zipIdx.filter (fun e => hit e.2 e.1)).flatMap (fun e => e.1.cells)
    let bytes := ((x.items.zipIdx.filter (fun e => hit e.2 e.1)).map (fun e => e.1.len)).sum
    let items := x.items.zipIdx.map (fun e => if hit e.2 e.1 then { e.1 with acked := true, cells := [] } else e.1)
    let rest := dropAcked items
    let s := releaseItems i gone rest (s.setXfer i { x with bytes := x.bytes + bytes })
    match x.ctx with
    | some c => s.updCtx c (fun c => { c with outOld := (c.outOld + (items.length - rest.length)) % 16, rsNext := false })
    | none => s

/-- The items of a bulk OUT transfer that a burst carried, by their sequence numbers. -/
def inBurst (outOld : Nat) (t : Txn) (p : Item × Nat) : Bool :=
  match t.kind with
  | .dataB ps => decide (p.2 < 8) && (ps.map (·.1)).contains ((outOld + p.2) % 16)
  | _ => false
/-- Change the items that a burst carried. -/
def mapBurst (outOld : Nat) (t : Txn) (f : Item → Item) (items : List Item) : List Item :=
  items.zipIdx.map (fun p => if inBurst outOld t p then f p.1 else p.1)
/-- `BURST_ACK` (R165): its burst is a good exchange, so what it did not acknowledge goes again as a new transaction. -/
def burstAcked (n i : Nat) (t : Txn) (sq map : Nat) (s : State) : State :=
  match s.xfer i with
  | none => s
  | some x =>
    let old := ((x.ctx.map s.ctx).getD {}).outOld
    let d := (sq + 16 - old) % 16
    if 8 < d then
      let s := match x.ctx with | some c => s.updCtx c (fun c => { c with rsNext := true }) | none => s
      lineDone i stToggleResync (resync n t s)
    else
      let s := s.setXfer i { x with items := mapBurst old t (fun it => { it with tries := 0 }) x.items }
      let s := progress i (ackItems i (fun j => decide (j < d) || (decide (d < j) && (map / 2 ^ (j - d)) % 2 == 1)) s)
      match s.xfer i with
      | some y => if y.items.isEmpty && y.got == y.length && y.partialItem.isEmpty && !y.ptrs.broken then lineDone i stOk s
          else s
      | none => s

/-- A control packet is acknowledged (R163, R169). -/
def controlAcked (i : Nat) (t : Txn) (s : State) : State :=
  match s.xfer i with
  | none => s
  | some x => match x.stage with
    | .setup => (progress i s).updXfer i (fun y =>
        { y with e := true, t := true, stage := if 0 < x.length then .data else .status })
    | .data =>
      let b := match t.kind with | .dataP _ b => b | _ => []
      let gone := (x.items.take 1).flatMap (·.cells)
      let s := if x.fromRing then releaseItems i gone (x.items.drop 1) s else s
      (progress i s).updXfer i (fun y =>
        { y with t := !y.t, bytes := y.bytes + b.length, dataIn := y.dataIn ++ b,
                 stage := if x.length ≤ y.bytes + b.length then .status else .data })
    | .status => controlDone i s

/-- A control data or status packet arrives (R162, R169): one out of step is discarded and ends the transfer, without rs
on endpoint 0 (DESIGN CHOICE, log 74). -/
def controlData (n i : Nat) (t : Txn) (tg : Bool) (b : List Byte) (s : State) : State :=
  match s.xfer i with
  | none => s
  | some x =>
    let want := if x.stage = .status then true else x.e
    if tg ≠ want then lineDone i stToggleResync (resync n t (wasteCells t b s))
    else if x.stage = .status then controlDone i s
    else
      let take := b.take (x.length - x.dataIn.length)
      let s := progress i (if x.fromRing then commitIn i take false s else s)
      s.updXfer i (fun y =>
        { y with e := !y.e, dataIn := y.dataIn ++ take,
                 stage := if b.length < s.xferMax x ∨ x.length ≤ y.dataIn.length + take.length then .status else .data })

/-- A ONE_OUT is acknowledged (R163, R309). -/
def oneAcked (i : Nat) (s : State) : State :=
  match s.xfer i with
  | none => s
  | some x =>
    let s := match x.ctx with | some c => s.updCtx c (fun c => { c with t := !c.t, rsNext := false }) | none => s
    let s := releaseItems i (x.items.flatMap (·.cells)) [] (s.updXfer i (fun y => { y with bytes := x.length }))
    if (s.xfer i).any (·.ptrs.broken) then s else lineDone i stOk s

/-- A transfer's endpoint answers NAK (R160, R316). -/
def nakXfer (i : Nat) (s : State) : State :=
  match s.xfer i with
  | none => s
  | some x =>
    let fresh := x.nakFrame ≠ some s.frame ∧ x.progFrame ≠ some s.frame
    let s := s.setXfer i { x with nakFrame := some s.frame, naks := if fresh then x.naks + 1 else x.naks, attempts := 0 }
    match x.ctx with
    | some c => s.updCtx c (fun c => { c with nakFrame := some s.frame })
    | none => s
/-- A transfer's endpoint answers STALL (R189, R390): EP0 only refuses the request. -/
def stallXfer (i : Nat) (s : State) : State :=
  match s.xfer i with
  | none => s
  | some x =>
    let s := match x.ctx with
      | some c => if x.op = .control then s else s.updCtx c (fun c => { c with halted := true })
      | none => s
    match x.origin with
    | .port k p => s.updRxp k p (fun y => if y.state = .open then { y with state := .stalled } else y)
    | _ => lineDone i stStall s

/-- A transaction of a transfer failed an attempt (R160): the packets of a burst keep the count of the transaction that
carries them.  A port's standing transfer goes on (R379); one being aborted that fails its last attempt completes with its
failure (R280, R325); credits not used go back at its end (R375). -/
def failedXfer (n i : Nat) (t : Txn) (s : State) : State :=
  match s.xfer i with
  | none => s
  | some x =>
    let port : Bool := match x.origin with | .port _ _ => true | _ => false
    let items := mapBurst ((x.ctx.map s.ctx).getD {}).outOld t (fun it => { it with tries := it.tries + 1 }) x.items
    let bulk : Bool := match t.kind with | .dataB _ => true | _ => false
    let s := s.setXfer i { x with
      items := items, attempts := if port || bulk then 0 else x.attempts + 1, credits := if x.isIn then 0 else x.credits }
    if !port && decide (4 ≤ (if bulk then t.attempt else x.attempts + 1)) && (x.stopping.isNone || x.stopping == some stAborted)
        && x.open then
      s.updTrk n (fun k => { k with exhausted := k.exhausted ++ [t] })
    else afterTxn i s

/-! Occurrences. -/

/-- An event of an entry, at most once in 256 frames (R256). -/
def occEvent (c : Nat) (name : EventName) (s : State) : State :=
  let x := s.ctx c
  let old := if name = .pollMissed then x.missedAt else x.failedAt
  let told := match old with | some f => decide (s.frame < f + 256) | none => false
  if told then s
  else raise x.owner name x.trunk c (s.updCtx c (fun x =>
    if name = .pollMissed then { x with missedAt := some s.frame } else { x with failedAt := some s.frame }))
/-- An occurrence is missed (R253, R256). -/
def missOcc (c : Nat) (s : State) : State :=
  let x := s.ctx c
  occEvent c .pollMissed (updStat x.trunk x.owner (fun v => { v with missed := satAdd 0xFFFF v.missed 1 })
    (s.updCtx c (fun x => { x with occ := {} })))
/-- An occurrence ended with a status (Table 7.4). -/
def endOcc (c st : Nat) (s : State) : State :=
  s.updCtx c (fun x => { x with occ := {}, alm := if x.alm.present then { x.alm with lastStatus := st } else x.alm })
/-- An occurrence has failed (R255, R256, R367): the copy of an OUT stays pending. -/
def failOcc (c : Nat) (s : State) : State :=
  let x := s.ctx c
  let s := if x.kind = 2 then s.updCtx c (fun x => { x with epm := { x.epm with pending := some x.occ.bytes, copy := none } }) else s
  occEvent c .pollFailed (updStat x.trunk x.owner (fun v => { v with failed := satAdd 0xFFFF v.failed 1 })
    (endOcc c stCrcRetry s))
/-- A sample is written into the buffer (R364, R365); a context without an unconsumed one enters its channel's
order (R345); the controller itself takes a hub's records. -/
def writeSample (c : Nat) (b : List Byte) (s : State) : State :=
  let x := s.ctx c
  let full := x.epm.state == .full
  let s := s.updCtx c (fun x => { x with epm :=
    { x.epm with state := if x.alm.hubEv then .used else .full, data := b, frame := s.frame, stamp := s.tim.ns,
                 lost := x.epm.lost || full,
                 overwritten := if full then satAdd 0xFFFF x.epm.overwritten 1 else x.epm.overwritten } })
  match x.channel with
  | some h => if full then s else s.updCh h (fun y => { y with pend := if y.pend.contains c then y.pend else y.pend ++ [c] })
  | none => s
/-- A periodic DATA_P arrives (R162, R203).  After a resync rs stays 1 until a good one (DESIGN CHOICE, log 74). -/
def occData (n c : Nat) (t : Txn) (tg : Bool) (b : List Byte) (s : State) : State :=
  let x := s.ctx c
  if tg ≠ x.e then endOcc c stToggleResync (resync n t (s.updCtx c (fun x => { x with rsNext := true })))
  else
    let s := endOcc c stOk ((writeSample c b s).updCtx c (fun x => { x with e := !x.e, rsNext := false }))
    if x.alm.hubEv then portEvents n t.hub 16 b s else s
/-- A periodic OUT is acknowledged (R163, R366, R367). -/
def occAcked (c : Nat) (s : State) : State :=
  endOcc c stOk (s.updCtx c (fun x => { x with
    t := !x.t, rsNext := false,
    epm := { x.epm with pending := none, copy := none, state := if x.epm.newer then x.epm.state else .used } }))
/-- An attempt of an occurrence failed (R255). -/
def failedOcc (n c : Nat) (t : Txn) (s : State) : State :=
  let a := (s.ctx c).occ.attempts + 1
  let s := s.updCtx c (fun x => { x with occ := { x.occ with attempts := a, waiting := decide (a < 4) } })
  if 4 ≤ a then s.updTrk n (fun k => { k with exhausted := k.exhausted ++ [t] }) else s

/-! Packets sent again after a changeover (R457, R459). -/

/-- A resend names a packet of the transaction, its payload and toggle or number included. -/
def Resend.of (r : Resend) (n : Nat) (t : Txn) : Bool := r.outcome.isNone && (match r.entry with
  | .allow _ _ _ _ _ _ _ _ _ _ => (txnPackets t).any (fun p => allowHas [r.entry] n p)
  | _ => false)
/-- The sequence number and length of a resend. -/
def Resend.sq (r : Resend) : Nat := match r.entry with | .allow _ _ _ _ sq _ _ _ _ _ => sq | _ => 0
def Resend.len (r : Resend) : Nat := match r.entry with
  | .allow _ _ _ ty _ _ _ _ _ b => if ty = ptSetup then 0 else b.length
  | _ => 0
/-- The XFER entry of a resend. -/
def Resend.xfer (r : Resend) : Option Nat := match r.entry with | .allow _ _ _ _ _ _ _ _ x _ => x | _ => none
/-- The ledger entry of an XFER entry once its packets have ended (R459). -/
def Tdm.ledgerFor (m : Tdm) (j : Nat) (e : CatchEntry) : Option Ledger :=
  match e with
  | .xfer crew ring index cookie length acked =>
    let mine := m.resend.filter (fun r => r.xfer == some j)
    if mine.any (fun r => r.outcome.isNone) then none
    else
      let total := acked + (mine.map (·.acked)).sum
      let bad := mine.findSome? (fun r => match r.outcome with | some st => if st = stOk then none else some st | none => none)
      some ⟨crew, ring, index, cookie, total,
        if total = length then stOk else if total = 0 then stNotExecuted else bad.getD stAborted⟩
  | _ => none
/-- Write the ledger entries that are due, up to 4,096. -/
def ledgerStep (s : State) : State :=
  s.tdm.xferBase.foldl (fun s e =>
    match s.tdm.ledgerFor e.1 e.2 with
    | none => s
    | some l => { s with tdm := { s.tdm with
        xferBase := s.tdm.xferBase.filter (fun x => x.1 != e.1),
        ledger := if s.tdm.ledger.length < 4096 then s.tdm.ledger ++ [l] else s.tdm.ledger } }) s
/-- Change the resends that a transaction carries. -/
def updResend (n : Nat) (t : Txn) (f : Resend → Resend) (s : State) : State :=
  ledgerStep { s with tdm := { s.tdm with resend := s.tdm.resend.map (fun r => if r.of n t then f r else r) } }
/-- A resend ends as acknowledged. -/
def Resend.ok (r : Resend) : Resend := { r with outcome := some stOk, acked := r.len }
/-- The first packet of a transaction. -/
def firstSeq (t : Txn) : Nat := match t.kind with | .dataB ((q, _) :: _) => q | _ => 0
/-- An answer to resent packets: those not acknowledged by a BURST_ACK wait for another attempt. -/
def resendAnswer (n : Nat) (t : Txn) (ty sq map : Nat) (s : State) : State :=
  if ty = ptNak then s
  else if ty = ptStall then updResend n t (fun r => { r with outcome := some stStall }) s
  else if ty = ptBurstAck then
    let d := (sq + 16 - firstSeq t) % 16
    updResend n t (fun r =>
      let j := (r.sq + 16 - firstSeq t) % 16
      if d ≤ 8 ∧ (j < d ∨ (d < j ∧ (map / 2 ^ (j - d)) % 2 = 1)) then r.ok
      else if 8 < d then { r with outcome := some stToggleResync } else r) s
  else
    let s := match t.kind, s.ctxOf n t.addr t.ep with
      | .dataP tg _, some c => s.updCtx c (fun x => { x with t := !tg })
      | _, _ => s
    updResend n t Resend.ok s
/-- An attempt of a resend failed (R160). -/
def resendFailed (n : Nat) (t : Txn) (s : State) : State :=
  updResend n t (fun r =>
    { r with attempts := r.attempts + 1, outcome := if 4 ≤ r.attempts + 1 then some stCrcRetry else none }) s

/-! The relay of a split trunk, at the partner (R464). -/

/-- The state of a far endpoint follows what its transaction showed. -/
def farState (n : Nat) (t : Txn) (ty sq : Nat) (s : State) : State :=
  match s.ctxOf n t.addr t.ep with
  | none => s
  | some c => s.updCtx c (fun x => match t.kind with
    | .dataP tg _ => if ty = ptAck then { x with t := !tg } else x
    | .tokenP tg => if ty = ptDataP ∧ sq % 2 = bit tg then { x with e := !tg } else x
    | .tokenB _ _ => if ty = ptDataB ∧ sq = x.inE then { x with inE := (sq + 1) % 16 } else x
    | .dataB _ => if ty = ptBurstAck then { x with outOld := sq } else x
    | _ => x)
/-- A relayed request ends with its status stage, a STALL, or four line errors in a row (R160, R187). -/
def farRequest (n : Nat) (t : Txn) (ty : Nat) (s : State) : State :=
  if t.ep ≠ 0 then s
  else s.updTrk n (fun k => { k with farSetup := k.farSetup.filterMap (fun f =>
    if f.1 ≠ t.addr then some f
    else match t.kind with
    | .tokenP _ => if ty = ptDataP ∨ ty = ptStall then none else if ty = 0 ∧ 3 ≤ f.2.2 then none
        else some (f.1, f.2.1, if ty = 0 then f.2.2 + 1 else 0)
    | _ => if ty = ptStall ∨ (ty = 0 ∧ 3 ≤ f.2.2) then none else some (f.1, f.2.1, if ty = 0 then f.2.2 + 1 else 0)) })
/-- Return a result to the active unit. -/
def relayBack (n : Nat) (t : Txn) (id ty sq aux : Nat) (te : Bool) (b : List Byte) (final : Bool) (s : State) : State :=
  sendMsg .relay (relayLen b.length) (.tdmResult ⟨Fin.ofNat 8 n, id, ty, sq, aux, te, b, final⟩)
    (farRequest n t ty (farState n t ty sq s))

/-! What ends a transaction. -/

/-- The context of an occurrence, while it is still the endpoint's. -/
def State.occCtx (s : State) (n : Nat) (t : Txn) : Option Nat :=
  t.ctx.filter (fun c => (s.ctx c).used && (s.ctx c).trunk == n && (s.ctx c).addr == t.addr && (s.ctx c).ep == t.ep)

/-- An attempt ended without a good response; its slot is free and the exchange noted. -/
def attemptFailed (n : Nat) (t : Txn) (s : State) : State :=
  match t.purpose with
  | .transfer => match t.xfer with | some i => failedXfer n i t s | none => s
  | .occurrence => match s.occCtx n t with | some c => failedOcc n c t s | none => s
  | .measure => if t.attempt < 4 then s.updTrk n (fun k => { k with hopWait := some (t.hop, t.attempt + 1) }) else s
  | .rateConfirm => s.updTrk n (fun k => { k with rateChg := k.rateChg.map (fun c => { c with tries := c.tries + 1 }) })
  | .walk => walkStep n t.hop false s
  | .resend => resendFailed n t s
  | .relay id _ => relayBack n t id 0 0 0 false [] true s
  | .claimConfirm => s
  | .seal => s
/-- A line error (R189): counted, the slot freed, the attempt failed. -/
def lineError (n : Nat) (t : Txn) (e : LineErr) (s : State) : State :=
  attemptFailed n t (noteExchange n t false (freeSlot n t (countErr n e s)))

/-! Good responses. -/

/-- A transfer's good response of one packet. -/
def xferAnswer (n i : Nat) (t : Txn) (ty sq aux : Nat) (b : List Byte) (s : State) : State :=
  match s.xfer i with
  | none => s
  | some x =>
    let s :=
      if !x.open then s
      else if ty = ptNak then nakXfer i s
      else if ty = ptStall then stallXfer i s
      else match x.op with
      | .control => if ty = ptAck then controlAcked i t s else controlData n i t (sq % 2 == 1) b s
      | .bulkOut => burstAcked n i t sq aux s
      | .oneOut => oneAcked i s
      | _ => s
    afterTxn i s
/-- An occurrence ended without an ACK: the line port keeps the copy of an OUT (R163, log 35). -/
def Epm.keep (t : Txn) (e : Epm) : Epm :=
  match t.kind with
  | .dataP _ b => { e with copy := some b }
  | _ => e
/-- An occurrence's good response. -/
def occAnswer (n c : Nat) (t : Txn) (ty sq : Nat) (b : List Byte) (s : State) : State :=
  if ty = ptNak then endOcc c stOk (s.updCtx c (fun x => { x with epm := x.epm.keep t }))
  else if ty = ptStall then endOcc c stStall (s.updCtx c (fun x => { x with halted := true, epm := x.epm.keep t }))
  else if ty = ptAck then updResend n t Resend.ok (occAcked c s)
  else occData n c t (sq % 2 == 1) b s

/-- Rate confirmation goes to the next addressed hub, or ends (Table 5.13). -/
def rateStep (n : Nat) (s : State) : State :=
  match (s.trk n).rateChg with
  | none => s
  | some c => match s.nextHop n (c.hop + 1) with
    | some h => s.updTrk n (fun k => { k with rateChg := some { c with hop := h, tries := 0 } })
    | none => rateDone n s

/-- The seal or unseal of a hub's far side is confirmed (R199). -/
def sealed (n : Nat) (t : Txn) (s : State) : State :=
  match t.kind with
  | .claim _ a => s.updTrk n (·.updHub t.hub (fun h => { h with sealed := a == 1 }))
  | _ => s

/-- A good response of one packet: `rtt` is its round trip, for a HOP_RSP. -/
def goodAnswer (n : Nat) (t : Txn) (ty sq aux : Nat) (te : Bool) (b : List Byte) (rtt : Nat) (s : State) : State :=
  match t.purpose with
  | .transfer => match t.xfer with | some i => xferAnswer n i t ty sq aux b s | none => s
  | .occurrence => match s.occCtx n t with | some c => occAnswer n c t ty sq b s | none => s
  | .measure => hopSample n t.hub t.hop rtt s
  | .rateConfirm => rateStep n s
  | .walk => walkStep n t.hop true s
  | .claimConfirm => s.updTrk n (fun k => { k with claiming := false, claimConfirm := false })
  | .seal => sealed n t s
  | .resend => resendAnswer n t ty sq aux s
  | .relay id _ => relayBack n t id ty sq aux te b true s

/-! A bulk IN burst, packet by packet (R167, R189, R316). -/

/-- One packet of a burst in good order: what is taken of it, and whether the transfer ends with it.  What a port's flush
found being received is discarded (R384). -/
def takeBulk (i : Nat) (t : Txn) (te : Bool) (b : List Byte) (s : State) : Bool × State :=
  match s.xfer i with
  | none => (true, s)
  | some x =>
    let s := match x.ctx with
      | some c => s.updCtx c (fun c => { c with inE := (c.inE + 1) % 16, rsNext := c.rsNext && t.keepRs })
      | none => s
    let s := progress i s
    match x.origin with
    | .port _ _ => (false, if t.flushed then wasteCells t b s else commitIn i b te s)
    | _ =>
      let take := b.take (x.length - x.got)
      let s := commitIn i take te s
      if te then (true, lineDone i (if x.got + take.length < x.length then stShort else stOk) s)
      else if x.length ≤ x.got + take.length then (true, lineDone i stOk s)
      else (false, s)
/-- A packet of a burst with the sequence number `sq` (R167): the first one out of step resynchronises; a later one
is an error. -/
def bulkPacket (n i : Nat) (t : Txn) (sq : Nat) (te : Bool) (b : List Byte) (s : State) : Txn × State :=
  match s.xfer i with
  | none => ({ t with broken := true }, s)
  | some x =>
    let c := (x.ctx.map s.ctx).getD {}
    if !x.open then ({ t with broken := true }, wasteCells t b s)
    else if sq ≠ c.inE then
      let s := wasteCells t b s
      if t.got = 0 then
        let s := resync n t (match x.ctx with | some k => s.updCtx k (fun c => { c with rsNext := true }) | none => s)
        ({ t with broken := true }, match x.origin with
          | .port k p => s.updRxp k p (fun y => { y with resyncs := satAdd 0xFFFF y.resyncs 1 })
          | _ => lineDone i stToggleResync s)
      else ({ t with broken := true, bad := true }, s)
    else
      let (broke, s) := takeBulk i t te b s
      ({ t with got := t.got + 1, broken := broke, flushed := false }, s)
/-- Keep a transaction that is still being answered. -/
def keepTxn (n : Nat) (t : Txn) (s : State) : State :=
  s.updTrk n (fun k => { k with slots := k.slots.map (fun x => if x.slot = t.slot then t else x) })
/-- The end of a burst. -/
def burstEnds (n : Nat) (t : Txn) (s : State) : State :=
  let s := noteExchange n t (!t.bad) (freeSlot n t s)
  if t.bad then attemptFailed n t s
  else match t.xfer with | some i => afterTxn i s | none => s
/-- One packet of a burst arrives. -/
def burstArrives (n : Nat) (t : Txn) (p : RxPkt) (final : Bool) (s : State) : State :=
  let count := match t.kind with | .tokenB _ m => m | _ => 0
  let sq := hdrSq p.hdr
  let te := hdrTe p.hdr
  let step : Txn × State :=
    if t.broken then (t, wasteCells t p.payload s)
    else match s.judge n t p with
    | .good =>
      if count ≤ t.got then ({ t with broken := true, bad := true }, wasteCells t p.payload s)
      else match t.purpose, t.xfer with
      | .relay id _, _ => ({ t with got := t.got + 1 }, relayBack n t id ptDataB sq 0 te p.payload final s)
      | _, some i => bulkPacket n i t sq te p.payload s
      | _, none => ({ t with broken := true }, s)
    | .bad e => ({ t with broken := true, bad := true }, countErr n e (wasteCells t p.payload s))
    | .mismatch => ({ t with broken := true, bad := true }, raise 0 .lineResponderMismatch n (t.ctx.getD 0) s)
  if final then burstEnds n step.1 step.2 else keepTxn n step.1 step.2

/-! Receiving. -/

/-- The transaction in a slot. -/
def Trk.inSlotNo (t : Trk) (i : Nat) : Option Txn := t.slots.find? (fun x => x.slot == i)
/-- A packet arrives for the transaction in a slot (R189); `final` marks the last packet of a burst. -/
def receive (n slot : Nat) (p : RxPkt) (final : Bool) (rtt : Nat) (s : State) : State :=
  match (s.trk n).inSlotNo slot with
  | none => s
  | some t =>
    if !hasUp t.kind then s
    else match t.kind with
    | .tokenB _ _ =>
      if hdrType p.hdr = ptDataB ∨ 0 < t.got then burstArrives n t p final s
      else match s.judge n t p with
      | .good => goodAnswer n t (hdrType p.hdr) 0 0 false [] 0 (noteExchange n t true (freeSlot n t s))
      | .bad e => lineError n t e s
      | .mismatch => lineError n t .other (raise 0 .lineResponderMismatch n (t.ctx.getD 0) s)
    | _ => match s.judge n t p with
      | .good =>
        goodAnswer n t (hdrType p.hdr) (hdrSq p.hdr) (hdrAux p.hdr) (hdrTe p.hdr) p.payload rtt
          (noteExchange n t true (freeSlot n t s))
      | .bad e => lineError n t e (wasteCells t p.payload s)
      | .mismatch => lineError n t .other (raise 0 .lineResponderMismatch n (t.ctx.getD 0) s)

/-- A BCAST has been sent: its budget has run out (R171). -/
def bcastDone (i : Nat) (s : State) : State :=
  match s.xfer i with
  | none => s
  | some x => afterTxn i (if x.open then lineDone i stOk (s.setXfer i { x with bytes := x.length }) else s)

/-- A response budget ends (R159, R171, R189). -/
def budgetEnds (n slot : Nat) (s : State) : State :=
  match (s.trk n).inSlotNo slot with
  | none => s
  | some t =>
    if hasUp t.kind then lineError n t .timeout s
    else
      let s := freeSlot n t s
      let s := match t.purpose with
        | .resend => updResend n t Resend.ok s
        | .relay id _ => relayBack n t id ptBcast 0 0 false [] true s
        | _ => s
      match t.xfer with | some i => bcastDone i s | none => s

/-- The first transaction of a trunk that failed its fourth attempt (R160, R255). -/
def exhaust (n : Nat) (s : State) : State :=
  match (s.trk n).exhausted with
  | [] => s
  | t :: rest =>
    let s := s.updTrk n (fun k => { k with exhausted := rest })
    match t.xfer, t.ctx with
    | some i, c =>
      let bulk := match t.kind with | .dataB _ => true | _ => false
      let s := match c with
        | some k => if bulk then s.updCtx k (fun x => { x with rsNext := true }) else s
        | none => s
      lineDone i stCrcRetry s
    | none, some _ => match s.occCtx n t with
      | some c => updResend n t (fun r => { r with outcome := some stCrcRetry }) (failOcc c s)
      | none => s
    | none, none => s

/-- `RX_DATA_P` (R162). -/
def execRxDataP (trunk : Fin 8) (slot : Fin 32) (pkt : RxPkt) (s : State) : Host.Outcome State Fault Refusal :=
  finish (receive trunk slot pkt true 0 s)
/-- `HUB_EVENT_SAMPLE` (R203). -/
def execHubEventSample (trunk : Fin 8) (slot : Fin 32) (pkt : RxPkt) (s : State) : Host.Outcome State Fault Refusal :=
  finish (receive trunk slot pkt true 0 s)
/-- `RX_DATA_B` (R167). -/
def execRxDataB (trunk : Fin 8) (slot : Fin 32) (pkt : RxPkt) (final : Bool) (s : State) :
    Host.Outcome State Fault Refusal := finish (receive trunk slot pkt final 0 s)
/-- `RX_ACK` (R163). -/
def execRxAck (trunk : Fin 8) (slot : Fin 32) (pkt : RxPkt) (s : State) : Host.Outcome State Fault Refusal :=
  finish (receive trunk slot pkt true 0 s)
/-- `RX_NAK` (R160). -/
def execRxNak (trunk : Fin 8) (slot : Fin 32) (pkt : RxPkt) (s : State) : Host.Outcome State Fault Refusal :=
  finish (receive trunk slot pkt true 0 s)
/-- `RX_STALL` (R189). -/
def execRxStall (trunk : Fin 8) (slot : Fin 32) (pkt : RxPkt) (s : State) : Host.Outcome State Fault Refusal :=
  finish (receive trunk slot pkt true 0 s)
/-- `RX_BURST_ACK` (R165). -/
def execRxBurstAck (trunk : Fin 8) (slot : Fin 32) (pkt : RxPkt) (s : State) : Host.Outcome State Fault Refusal :=
  finish (receive trunk slot pkt true 0 s)
/-- `RX_HOP_RSP` (R175). -/
def execRxHopRsp (trunk : Fin 8) (slot : Fin 32) (pkt : RxPkt) (rttLclk : Nat) (s : State) :
    Host.Outcome State Fault Refusal := finish (receive trunk slot pkt true rttLclk s)
/-- `RX_CLAIM` (R199). -/
def execRxClaim (trunk : Fin 8) (slot : Fin 32) (pkt : RxPkt) (s : State) : Host.Outcome State Fault Refusal :=
  finish (receive trunk slot pkt true 0 s)
/-- `RESPONSE_BUDGET_EXPIRED` (R159). -/
def execResponseBudgetExpired (trunk : Fin 8) (slot : Fin 32) (s : State) : Host.Outcome State Fault Refusal :=
  finish (budgetEnds trunk slot s)
/-- `RETRY_EXHAUSTED` (R160). -/
def execRetryExhausted (trunk : Fin 8) (s : State) : Host.Outcome State Fault Refusal := finish (exhaust trunk s)

end Sys2Proof.Machine
end

