-- ==== Sys2Proof/Machine/Catch.lean ====
section
/-! DEFINITION. Catch records: their bytes, what an active unit puts into them, and what a standby makes of them
(R444 to R450, R457, R461, Table 14.3). -/

namespace Sys2Proof.Machine

/-! Bytes (Table 14.3). -/

/-- Pad to a multiple of 16 bytes. -/
def pad16 (b : List Byte) : List Byte := b ++ List.replicate ((16 - b.length % 16) % 16) 0
/-- A head of 16 bytes and its padded body. -/
def rawEntry (kind trunk ep a : Nat) (own : List Nat) (body : List Byte) : List Byte :=
  leBytes 1 kind ++ [0] ++ leBytes 2 body.length ++ leBytes 1 trunk ++ leBytes 1 ep ++ leBytes 2 a
    ++ (own ++ List.replicate (8 - own.length) 0).map (fun v => BitVec.ofNat 8 v) ++ pad16 body
/-- The bytes of a number, as the own bytes of a head. -/
def ownBytes (n v : Nat) : List Nat := (leBytes n v).map (·.toNat)
/-- The bytes of an entry. -/
def entryBytes : CatchEntry → List Byte
  | .epState tr a ep e t halted old next inE tag acted setup bseq =>
    rawEntry 0x01 tr ep a [bit e + 2 * bit t + 4 * bit halted, old % 16 + next % 16 * 16, inE % 16,
      tag % 16 + 16 * bit acted + 32 * bit (!setup.isEmpty), bseq % 256] setup
  | .allow tr a ep ty sq te be aux x b =>
    rawEntry 0x02 tr ep a ([ty, sq, bit te + 2 * bit be, aux] ++ ownBytes 4 (x.getD 0xFFFFFFFF)) b
  | .xfer crew ring index cookie len acked =>
    rawEntry 0x03 0 0 0 ([crew, ring] ++ ownBytes 2 index ++ ownBytes 4 cookie.toNat) (leBytes 4 len ++ leBytes 4 acked)
  | .node tr a b => rawEntry 0x04 tr 0 a [] b
  | .line tr hub far lec tec pruned quar holder split k rate =>
    rawEntry 0x05 tr 0 hub [far, lec, tec, bit pruned + 2 * bit quar + 4 * bit holder + 8 * bit split, k, rate] []
  | .alm tr a ep v b => rawEntry 0x06 tr ep a [bit v] b
/-- The CRC of a record (Table 14.3). -/
def recordCrc (l : List CatchEntry) : BitVec 32 := crc32 (l.flatMap entryBytes)
/-- The size of a record with its CLOSE. -/
def recordSize (l : List CatchEntry) : Nat := (l.flatMap entryBytes).length + 32

/-- The 64 bytes of a roster entry (Tables 3.8, 6.7). -/
def Entry.bytes (e : Entry) : List Byte :=
  [e.trunk, e.hub, e.port, 1 + 2 * bit e.attached + 4 * bit e.configValid + 8 * bit e.wake + 16 * bit e.seeded
    + 32 * bit e.isHub].map (fun v => BitVec.ofNat 8 v) ++ leBytes 2 e.addr ++ leBytes 1 e.owner ++ List.replicate 9 0
    ++ (e.identity ++ List.replicate 32 0).take 32 ++ (e.config ++ List.replicate 16 0).take 16
/-- The 16 bytes of an almanac entry (Table 7.4). -/
def Alm.bytes (a : Alm) (c : Nat) : List Byte := (a.words c).flatMap (fun w => leBytes 4 w.toNat)

/-! What is mirrored (R445, R450). -/

/-- The mirrored state of an endpoint context: EP0 as its running control transfer has it. -/
def State.epStateOf (s : State) (x : Ctx) : CatchEntry :=
  let run := s.xfers.find? (fun y => y.2.op == .control && y.2.open && y.2.tagged && y.2.trunk == x.trunk && y.2.addr == x.addr)
  let e := s.entry x.entry
  let ctl := x.ep == 0
  let tg := match run with | some y => if ctl then (y.2.e, y.2.t) else (x.e, x.t) | none => (x.e, x.t)
  .epState x.trunk x.addr x.ep tg.1 tg.2 x.halted x.outOld x.outNext x.inE
    (if ctl then (e.map (·.tag)).getD 0 else 0) (ctl && (e.map (·.acted)).getD false)
    (if ctl then (e.map (·.setup)).getD [] else []) (Tab.get 0 (s.trk x.trunk).bseq x.ep)
/-- The far-side state of a hub as Table 6.2 codes it. -/
def Hub.farCode (h : Hub) : Nat :=
  if h.pruned then 4 else if h.sealed then 6
  else match h.far with | .eve _ => 2 | .asleep => 3 | .waking _ _ => 3 | _ => 1
/-- The hub holds a suspend: of its far side or of a port (Table 6.8). -/
def Hub.holds (h : Hub) : Bool := h.far.deep || h.ports.any (fun p => p.2.deep)
/-- The LINE entry of a hub; hub position 0 is the line port, which holds a trunk suspend (log 61). -/
def State.lineOf (s : State) (n p : Nat) : CatchEntry :=
  let t := s.trk n
  let h := t.hub p
  .line n p h.farCode h.lec t.tec h.pruned t.quarantined (if p = 0 then t.sleep.deep else h.holds) (t.mode != .whole)
    t.splitK t.rateEff
/-- Everything that is mirrored, key by key, of the pair-fed trunks. -/
def State.snapshot (s : State) : List CatchEntry :=
  (s.ctxs.filter (fun c => c.2.used && s.pairFed c.2.trunk)).map (fun c => s.epStateOf c.2)
    ++ (s.ros.entries.filter (fun e => s.pairFed e.2.trunk)).map (fun e => .node e.2.trunk e.2.addr e.2.bytes)
    ++ ((List.range 8).filter s.pairFed).flatMap (fun n =>
        ((if (s.trk n).sleep.deep then [0] else []) ++ s.hubsUp n).map (s.lineOf n))
    ++ (s.ctxs.filter (fun c => c.2.used && s.pairFed c.2.trunk && c.2.alm.valid)).map
        (fun c => .alm c.2.trunk c.2.addr c.2.ep true (c.2.alm.bytes c.1))

/-- Two entries have the same key. -/
def sameKey : CatchEntry → CatchEntry → Bool
  | .epState n a e _ _ _ _ _ _ _ _ _ _, .epState m b f _ _ _ _ _ _ _ _ _ _ => n == m && a == b && e == f
  | .node n a _, .node m b _ => n == m && a == b
  | .line n a _ _ _ _ _ _ _ _ _, .line m b _ _ _ _ _ _ _ _ _ => n == m && a == b
  | .alm n a e _ _, .alm m b f _ _ => n == m && a == b && e == f
  | _, _ => false
/-- What tells that a key is gone: an entry that is not valid. -/
def goneEntry : CatchEntry → Option CatchEntry
  | .node n a b => some (.node n a (b.take 3 ++ [0] ++ b.drop 4))
  | .alm n a e _ b => some (.alm n a e false b)
  | .line n 0 f l t p q _ sp k r => some (.line n 0 f l t p q false sp k r)
  | _ => none
/-- The entries whose state changed since the last record (R445). -/
def changes (old new : List CatchEntry) : List CatchEntry :=
  new.filter (fun e => !old.contains e)
    ++ (old.filter (fun e => !new.any (sameKey e))).filterMap goneEntry

/-! The allowance (R446, R447). -/

/-- The OUT packets a transfer may send next, those on the line included. -/
def State.nextOut (s : State) (i : Nat) (x : Xfer) : List (BitVec 32 × List Byte) :=
  let c := (x.ctx.map s.ctx).getD {}
  let pk := fun (k : TxnKind) => txnPackets
    ({ slot := 0, kind := k, purpose := .transfer, addr := x.addr, ep := x.ep, hub := 0, hop := 0 } : Txn)
  if s.behindOther i x then []
  else match x.op with
  | .control => match x.stage with
    | .setup => pk (.setup (s.tagFor x) x.setup)
    | .data => if setupIn x.setup then [] else ((s.outChunk x).map (fun b => pk (.dataP x.t b))).getD []
    | .status => if setupIn x.setup && decide (0 < x.length) then pk (.dataP true []) else []
  | .bulkOut =>
    pk (.dataB (((x.items.take 8).zipIdx.filter (fun p => !p.1.acked)).map (fun p =>
      ((c.outOld + p.2) % 16, p.1.te, p.1.data))))
  | .oneOut => ((x.items.head?).map (fun it => pk (.dataP c.t it.data))).getD []
  | .bcast => ((x.items.head?).map (fun it =>
      pk (.bcast (x.bseq.getD (Tab.get 0 (s.trk x.trunk).bseq x.ep)) it.data))).getD []
  | _ => []
/-- The data an OUT entry would send next. -/
def State.nextOcc (s : State) (n c : Nat) (x : Ctx) : List (BitVec 32 × List Byte) :=
  let flight := s.ctxBusy n c || x.occ.waiting
  let one := s.xfers.any (fun y => y.2.open && y.2.op == .oneOut && y.2.ctx == some c)
  let tg := if flight || x.occ.late then x.occT else x.t
  let data := if flight then some x.occ.bytes else x.epm.outData
  if x.kind ≠ 2 || !x.alm.present || (one && !x.occ.waiting && x.epm.held.isNone) then []
  else match data with
  | some b => txnPackets ({ slot := 0, kind := .dataP tg b, purpose := .occurrence, addr := x.addr, ep := x.ep, hub := 0, hop := 0 } : Txn)
  | none => []
/-- The ALLOW entry of a packet. -/
def allowOf (n : Nat) (x : Option Nat) (p : BitVec 32 × List Byte) : CatchEntry :=
  .allow n (hdrAddr p.1) (hdrEp p.1) (hdrType p.1) (hdrSq p.1) (hdrTe p.1) (p.1.getLsbD 7) (hdrAux p.1) x p.2
/-- Below the bound at which ALLOW entries are left out (R447). -/
def roomFor (l : List CatchEntry) : Bool := decide ((l.flatMap entryBytes).length < 196608)
/-- Add ALLOW entries one by one while there is room (R447). -/
def addAllowed (n : Nat) (x : Option Nat) (l : List CatchEntry) (ps : List (BitVec 32 × List Byte)) : List CatchEntry :=
  ps.foldl (fun l p => if roomFor l then l ++ [allowOf n x p] else l) l
/-- Add a transfer's entries: its XFER, which is always added, and the packets it indexes. -/
def State.addXfer (s : State) (l : List CatchEntry) (x : Nat × Xfer) : List CatchEntry :=
  let ps := s.nextOut x.1 x.2
  if ps.isEmpty || !s.pairFed x.2.trunk || !x.2.open then l
  else match x.2.origin with
  | .ring k r n =>
    addAllowed x.2.trunk (some l.length) (l ++ [.xfer k r (n % 65536) x.2.cookie x.2.length x.2.bytes]) ps
  | _ => addAllowed x.2.trunk none l ps
/-- Add the next data of an OUT entry. -/
def State.addOcc (s : State) (l : List CatchEntry) (c : Nat × Ctx) : List CatchEntry :=
  if c.2.used && s.pairFed c.2.trunk then addAllowed c.2.trunk none l (s.nextOcc c.2.trunk c.1 c.2) else l
/-- The entries of the record of this frame. -/
def State.recordEntries (s : State) : List CatchEntry :=
  let snap := s.snapshot
  let l := if s.tdm.fullDue then snap else changes s.tdm.mirror snap
  s.ctxs.foldl s.addOcc ((inSeq s.xfers).foldl s.addXfer l)

/-- The bytes of a CLOSE entry. -/
def closeBytes (c : CatchClose) : List Byte :=
  rawEntry 0x07 0 0 0 (ownBytes 2 c.frame ++ [c.epoch % 256, bit c.full + 2 * bit c.handover] ++ ownBytes 4 c.count)
    (leBytes 4 c.crc.toNat ++ leBytes 4 0)
/-- The bytes of a record on the CATCH channel. -/
def CatchRec.bytes (r : CatchRec) : List Byte := r.entries.flatMap entryBytes ++ closeBytes r.close
/-- Send a record: its entries and its CLOSE, in blocks one after the other. -/
def sendRecord (r : CatchRec) (s : State) : State :=
  sendBytes .catchRec r.bytes (emit (.tdmClose r.close) (r.entries.foldl (fun s e => emit (.tdmEntry e) s) s))

/-- The unit builds records (R444). -/
def State.builds (s : State) : Bool :=
  s.tdm.enable && s.tdm.active && !s.tdm.fenced && (s.tdm.pair == .joining || s.tdm.pair == .mirrored)

/-- Close the record of the frame at the guard (R444, R448, R450). -/
def catchClose (s : State) : State :=
  if !s.builds then s
  else
    let l := s.recordEntries
    let m := s.tdm
    let f := s.frame % 65536
    let r : CatchRec := ⟨f, l, ⟨f, m.epoch, m.fullDue, m.handover, l.length, recordCrc l⟩⟩
    sendRecord r { s with tdm := { m with
      mirror := s.snapshot, kept := m.kept ++ [r], closed := f, size := recordSize l, fullDue := false,
      fullFrame := if m.fullDue then some f else m.fullFrame,
      handFrame := if m.handover then some f else m.handFrame } }

/-! Applying a record, at the standby (R457, R461). -/

/-- Keep one entry for each key. -/
def mergeEntry (l : List CatchEntry) (e : CatchEntry) : List CatchEntry :=
  let rest := l.filter (fun x => !sameKey x e)
  match e with
  | .allow _ _ _ _ _ _ _ _ _ _ => l
  | .xfer _ _ _ _ _ _ => l
  | .alm _ _ _ false _ => rest
  | _ => rest ++ [e]

/-- A roster entry from its 64 bytes, with the owner this unit gives it and an endpoint map it does not know. -/
def parseEntry (b : List Byte) (owner : Nat) (epmap : List Byte) : Entry :=
  let f := byteAt b 3
  { trunk := byteAt b 0, hub := byteAt b 1, port := byteAt b 2, addr := leAt b 4 2, owner := owner,
    attached := f / 2 % 2 == 1, configValid := f / 4 % 2 == 1, wake := f / 8 % 2 == 1, seeded := f / 16 % 2 == 1,
    isHub := f / 32 % 2 == 1, identity := slice b 0x10 32, config := slice b 0x30 16, epmap := epmap }
/-- Apply a NODE entry to the roster (R461); the map of a node this unit has not addressed is open (log 1). -/
def applyNode (b : List Byte) (s : State) : State :=
  let n := byteAt b 0
  let old := s.entryAt n (byteAt b 1) (byteAt b 2)
  if byteAt b 3 % 2 = 0 then
    match old with
    | some (i, _) => { s with ros := { s.ros with entries := Keyed.erase i s.ros.entries } }
    | none => s
  else match old with
  | some (i, e) =>
    let x := parseEntry b e.owner e.epmap
    s.setEntry i { x with tag := e.tag, setup := e.setup, acted := e.acted }
  | none =>
    let (m, s) := freeBytes 64 s
    match freeIndex (fun i => (s.entry i).isSome) 4096 s with
    | (some i, s) => s.setEntry i (parseEntry b 0 m)
    | (none, s) => s
/-- Apply the endpoint state of one entry to the context with the same key (R457). -/
def applyEp (e : CatchEntry) (s : State) : State :=
  match e with
  | .epState n a ep e t halted old next inE tag acted setup bseq =>
    let s := match s.ctxOf n a ep with
      | none => s
      | some c => s.updCtx c (fun x => { x with
          e := e, t := t, halted := halted, outOld := old, outNext := next, inE := inE })
    let s := if ep ≠ 0 then s else match s.entryOf n a with
      | none => s
      | some (i, x) => s.setEntry i { x with tag := tag, acted := acted, setup := setup }
    s.updTrk n (fun k => { k with bseq := Tab.put 0 ep bseq k.bseq })
  | _ => s
/-- Apply the line state of one hub: prune, quarantine, suspend state and rate (R183, R457, Table 2.6). -/
def applyLine (e : CatchEntry) (s : State) : State :=
  match e with
  | .line n p far lec tec pruned quar holder _ _ rate =>
    let sleep : Sleep := if far = 2 then .eve s.frame else if far = 3 then .asleep else .awake
    let s := s.updTrk n (fun t => { t with tec := tec, rate := rate, rateEff := rate })
    let s := s.updTrk n (fun t =>
      if p = 0 then { t with sleep := if holder then .asleep else .awake }
      else t.updHub p (fun h => { h with
        lec := lec, pruned := pruned, prunedAt := s.frame, clean := 0, sealed := far == 6, far := sleep, holder := holder }))
    if quar then quarantine n s else s
  | _ => s
/-- Apply an almanac entry to the context with the same key. -/
def applyAlm (e : CatchEntry) (s : State) : State :=
  match e with
  | .alm n a ep _ b =>
    let w0 := leAt b 0 4
    let w3 := leAt b 12 4
    match s.ctxOf n a ep with
    | none => s
    | some c => s.updCtx c (fun x => { x with alm :=
        { valid := true, hubEv := w0 / 0x8000 % 2 == 1, ilog2 := w0 / 0x10000 % 16, phase := w0 / 0x100000 % 256,
          offHead := leAt b 4 2 % 16384, offTail := leAt b 6 2 % 16384, costHead := leAt b 8 2 % 16384,
          costTail := leAt b 10 2 % 16384, crew := x.owner, lastStatus := w3 / 256 % 256 } })
  | _ => s
/-- Apply everything that the acknowledged catches have given, for the trunks that meet a test. -/
def applyBase (p : Nat → Bool) (s : State) : State :=
  s.tdm.base.foldl (fun s e => match e with
    | .epState n _ _ _ _ _ _ _ _ _ _ _ _ => if p n then applyEp e s else s
    | .line n _ _ _ _ _ _ _ _ _ _ => if p n then applyLine e s else s
    | .alm n _ _ _ _ => if p n then applyAlm e s else s
    | _ => s) s

/-! What is to be sent again (R457, R459). -/

/-- Order of keys: trunk, address, endpoint. -/
def keyLess : CatchEntry → CatchEntry → Bool
  | .allow n a e _ _ _ _ _ _ _, .allow m b f _ _ _ _ _ _ _ =>
    decide (n < m ∨ (n = m ∧ (a < b ∨ (a = b ∧ e < f))))
  | _, _ => false
/-- Insert after those of the same or a lower key. -/
def insertKey (x : Resend) : List Resend → List Resend
  | [] => [x]
  | y :: t => if keyLess x.entry y.entry then x :: y :: t else y :: insertKey x t
/-- An allowed periodic DATA_P goes with its entry's next occurrence where this unit holds the entry. -/
def resendOne (e : CatchEntry) (s : State) : State :=
  match e with
  | .allow n a ep ty sq _ _ _ _ b =>
    let c := match s.ctxOf n a ep with
      | some c => if ty = ptDataP ∧ (s.ctx c).kind = 2 ∧ (s.ctx c).alm.present then some c else none
      | none => none
    let s := match c with
      | some c => s.updCtx c (fun x => { x with
          t := decide (sq % 2 = 1), epm := { x.epm with pending := some b, copy := none }, occ := {} })
      | none => s
    { s with tdm := { s.tdm with resend := insertKey { entry := e, viaOcc := c.isSome } s.tdm.resend } }
  | _ => s
/-- Send again the ALLOW packets of the last record that meet a test. -/
def resendSome (p : CatchEntry → Bool) (s : State) : State :=
  (s.tdm.rxRecord.filter p).foldl (fun s e => resendOne e s) { s with tdm := { s.tdm with resend := [] } }
/-- The resends of a changeover, with the ledger (R457, R459). -/
def resendAll (s : State) : State :=
  let r := s.tdm.rxRecord
  let xs := (r.zipIdx.filter (fun e => match e.1 with | .xfer _ _ _ _ _ _ => true | _ => false)).map (fun e => (e.2, e.1))
  let s := resendSome (fun _ => true) s
  ledgerStep { s with tdm := { s.tdm with ledger := [], xferBase := xs } }

end Sys2Proof.Machine
end

