-- ==== Sys2Proof/Machine/Tandem.lean ====
section
/-! DEFINITION. The tandem pair: lanes, pairing, heartbeat, records acknowledged, claims, the fence, changeover,
handover, split trunks and time over the link (chapter 14). -/

namespace Sys2Proof.Machine

/-! Small things. -/

/-- Lanes of a mask. -/
def width (m : Nat) : Nat := m % 2 + m / 2 % 2 + m / 4 % 2 + m / 8 % 2
/-- The pair-fed trunks. -/
def State.pairTrunks (s : State) : List Nat := (List.range 8).filter s.pairFed
/-- The code of a pair state (Table 14.2). -/
def PairState.code : PairState → Nat
  | .down => 0 | .unpaired => 1 | .joining => 2 | .mirrored => 3 | .unmirrored => 4
/-- Offset of a TDM register. -/
def tdmOffset (reg : Nat) : Nat := 0x280000 + reg
/-- The digest of the applied structure section (R439). -/
def State.structDigest (s : State) : List Byte :=
  match s.img.applied with
  | some im => ((im.table.find? (fun e => e.ty == 1)).map (·.digest)).getD []
  | none => []
/-- `bp_applied`. -/
def State.bpApplied (s : State) : Nat := (s.img.applied.map (·.hdr.bp)).getD 0

/-! The fence (R454, R455). -/

/-- `FENCE_OUT_N` (R454): low while a claim as active is unacknowledged, and while an active unit is not paired. -/
def fenceDrive (s : State) : State :=
  { s with tdm := { s.tdm with fenceOut := s.tdm.changeoverDue || (s.tdm.active && (s.tdm.fenceHold || !s.tdm.paired)) } }
/-- A pair-fed port is parked (R178): what it had in flight is forgotten. -/
def parkPort (n : Nat) (s : State) : State :=
  let t := s.trk n
  if !s.pairFed n || t.state = .stopped || t.state = .starting || t.state = .parked then s
  else emit (.signal n .electricalIdle) (s.updTrk n (fun t =>
    { t.rateOver with
             state := .parked, dtxen := false, quarantined := false, part := 0, mode := .whole, slots := [], exhausted := [],
             relayed := [], relays := [], farSetup := [], resv := [], exchanges := [], claimAt := none, claiming := false,
             claimFrame := false, claimConfirm := false, walk := none, unreach := 0, pruneAt := none, rateReq := false,
             attach := none, attachQ := [], healAt := none, sleep := .awake }))
/-- The unit is standby: it drives no pair-fed trunk. -/
def becomeStandby (s : State) : State :=
  let s := { s with tdm := { s.tdm with active := false, fenced := false, fenceHold := false, changeoverDue := false,
                                        handover := false, handFrame := none } }
  fenceDrive (s.pairTrunks.foldl (fun s n => parkPort n s) s)
/-- The running `ROS_CMD` of a unit that has lost a pair-fed trunk ends (R227, R460; log 61): a suspend or resume of the
trunk or of a far side `PRUNED`, any other with the status of its request. -/
def endRosCmd (s : State) : State :=
  match s.ros.run with
  | none => s
  | some r =>
    if !s.pairFed r.trunk || r.op == 3 || r.op == 4 then s
    else if r.op = 5 ∨ r.op = 6 then
      (if r.hub = 0 ∨ r.port = 16 then rosDone stPruned s else rosDone ((r.failSt <|> r.status).getD stNotExecuted) s)
    else rosDone ((r.failSt <|> r.status).getD stNotExecuted) s
/-- Unfinished transfers of a unit that has lost its pair-fed trunks (R460). -/
def endOwn (s : State) : State :=
  let s := s.xfers.foldl (fun s x =>
    let port := match x.2.origin with | .port _ _ => true | _ => false
    if x.2.ended || port || !s.pairFed x.2.trunk then s
    else if x.2.listed then endXfer x.1 stAborted s else completeXfer x.1 stNotExecuted 0 s) s
  rosProgress (endRosCmd s)
/-- An active unit finds its drivers gated (R455). -/
def becomeFenced (s : State) : State :=
  if s.tdm.fenced then s
  else raiseM .tdmFenced 0 (endOwn { s with tdm := { s.tdm with fenced := true } })
/-- A stern that finds the fence low while it claims withdraws (R455). -/
def withdraw (s : State) : State := raiseM .claimLost 0 (becomeStandby s)
/-- A gated unit drives no pair-fed trunk (R454). -/
def gateTrunks (s : State) : State :=
  s.pairTrunks.foldl (fun s n => s.updTrk n (fun t => { t with dtxen := false })) s
/-- An active unit whose own release of `FENCE_OUT_N` gates it becomes FENCED (R454, R455). -/
def fenceObeyed (s : State) : State :=
  if s.gated && s.tdm.active && !s.tdm.fenced then
    { becomeFenced (gateTrunks s) with tdm := { s.tdm with fenced := true } }
  else s
/-- A claim runs (R452): the tandem link is not quiesced (R475). -/
def State.claimRuns (s : State) : Bool :=
  s.tdm.changeoverDue || s.pairTrunks.any (fun n => (s.trk n).claimAt.isSome || (s.trk n).claiming)
/-- The unit is claiming as active. -/
def State.isClaiming (s : State) : Bool :=
  s.tdm.changeoverDue || (s.tdm.active && s.pairTrunks.any (fun n => (s.trk n).claimAt.isSome || (s.trk n).claiming))
/-- `FENCE_IN_N` changes (R454, R455). -/
def fenceChange (low : Bool) (s : State) : State :=
  let s := { s with tdm := { s.tdm with fenceIn := low } }
  if s.gated then
    let s := gateTrunks s
    if !s.straps.role && s.isClaiming then withdraw s
    else if s.tdm.active then becomeFenced s else s
  else if s.tdm.fenced then s
  else s.pairTrunks.foldl (fun s n =>
    let t := s.trk n
    if (t.state = .running ∨ t.state = .rateChange) ∧ !t.lineIdle ∧ !(t.mode != .whole && s.tdm.active && t.splitK == 0) then
      s.updTrk n (fun t => { t with dtxen := true }) else s) s

/-! Pairing (R439, R440, R450, R472). -/

/-- A pair that becomes JOINING starts over (R450). -/
def enterJoining (s : State) : State :=
  { s with tdm := { s.tdm with
      pair := .joining, fullDue := s.tdm.active, fullFrame := none, kept := [], mirror := [], allow := [],
      rxEntries := [], rxNums := [], rxNak := none,
      base := if s.tdm.active then s.tdm.base else [], rxFrame := if s.tdm.active then s.tdm.rxFrame else none,
      rxRecord := if s.tdm.active then s.tdm.rxRecord else [] } }
/-- The conditions of MIRRORED (R469, R472). -/
def Tdm.fit (m : Tdm) : Bool :=
  decide (2 ≤ width m.maskRx) && decide (2 ≤ width m.maskTx) && !m.skewed && decide (m.kept.length ≤ 16)
/-- A unit pairs: FENCED ends, and an inactive unit stays standby (R28, R455). -/
def pairedNow (s : State) : State := raiseM .pairUp 0 (if s.tdm.fenced then becomeStandby s else s)
/-- The pair state follows the link, the partner and the conditions (Table 14.2). -/
def pairUpdate (s : State) : State :=
  let m := s.tdm
  let link := m.enable && m.maskRx != 0 && m.maskTx != 0
  let paired := link && m.isMatch && m.partner.isSome
  let ok := m.fit
  let mirrorGone := m.enable && !ok && (m.pair == .joining || m.pair == .mirrored)
  let s := if mirrorGone then raiseM .mirrorLost 0 s else s
  let s := if paired && !m.paired then pairedNow s else s
  let s :=
    if !link then { s with tdm := { s.tdm with pair := .down, partner := none, isMatch := false } }
    else if !paired then { s with tdm := { s.tdm with pair := .unpaired } }
    else if !ok then { s with tdm := { s.tdm with pair := .unmirrored } }
    else if m.pair = .joining ∨ m.pair = .mirrored then s
    else enterJoining s
  timeSources (fenceDrive s)

/-- The units match (R439). -/
def State.pairVerdict (s : State) (b : PairBlock) : Option EventName :=
  if b.bow = s.straps.role then some .pairRoleConflict
  else if b.bp ≠ s.bpApplied ∨ b.digest ≠ s.structDigest then some .pairProfileMismatch
  else none
/-- A PAIR block (R439, R441, R451, R471). -/
def pairBlock (b : PairBlock) (s : State) : State :=
  if !s.tdm.enable || s.tdm.maskRx == 0 then s
  else
    let v := s.pairVerdict b
    let told := match s.tdm.partner with | some o => s.pairVerdict o == v | none => false
    let s := match v with | some e => if told then s else raiseM e 0 s | none => s
    let old := width s.tdm.maskTx
    let s := { s with tdm := { s.tdm with partner := some b, partnerActive := b.active, isMatch := v.isNone,
                                          maskTx := b.mask % 16 } }
    let s := if v.isNone && b.epochValid then takeEpoch (b.epoch % 256) s else s
    let s := if width s.tdm.maskTx = old then s else raiseM .tdmWidthChanged 0 s
    let s := if s.tdm.active then s.pairTrunks.foldl (fun s n =>
      learnTail n (b.hops.getD n 0) (s.updTrk n (fun t => { t with parkedHop := b.hops.getD n 0 % 128 }))) s else s
    fenceObeyed (pairUpdate s)
/-- A receive lane locks or loses lock (R436, R471). -/
def laneChange (i : Nat) (on : Bool) (s : State) : State :=
  if (s.tdm.maskRx / 2 ^ i % 2 == 1) = on then s
  else
    let m := if on then s.tdm.maskRx + 2 ^ i else s.tdm.maskRx - 2 ^ i
    let s := { s with tdm := { s.tdm with maskRx := m } }
    pairUpdate (if s.tdm.enable then raiseM .tdmWidthChanged 0 s else s)
/-- `TDM_CTRL.enable` (R473, R474). -/
def linkEnable (on : Bool) (s : State) : State :=
  if !s.responds .tdm || s.tdm.enable == on then s
  else pairUpdate { s with tdm := { s.tdm with enable := on, hbRun := 0, lost := false, refused := false } }

/-! Heartbeat (R442, R443, R456). -/

/-- The PAIR block of this unit (R439). -/
def State.ownPair (s : State) : PairBlock :=
  ⟨s.straps.role, s.bpApplied, s.shadow.siliconRev, s.structDigest, s.tdm.epoch, s.tdm.epochValid,
   (List.range 8).map (fun n => if s.pairFed n && (s.trk n).state == .parked then (s.trk n).parkedHop else 0), s.tdm.maskRx, s.tdm.pair.code, s.tdm.active⟩
/-- Offset 500 us (R439, R442, R467). -/
def heartbeat (s : State) : State :=
  if !s.tdm.enable then s
  else
    let s := sendMsg .heartbeat 1 (.tdmHeartbeat (s.frame % 65536) s.straps.role s.tdm.active s.tdm.pair.code s.tdm.epoch)
      (if s.pins.vddio33Ok then emit .hbPulse s else s)
    let s := if s.frame % 1000 = 0 then sendMsg .time 1 (.tdmTime s.tim.ns) s else s
    if s.tdm.maskRx = 0 then s else sendMsg .pair 2 (.tdmPair s.ownPair) s
/-- A heartbeat of the partner in its window. -/
def heartbeatSeen (s : State) : State :=
  { s with tdm := { s.tdm with hbGot := true, hbRun := 0, lost := false, mirroredAtHb := s.tdm.pair == .mirrored } }
/-- The window of R442. -/
def inWindow (off : Nat) : Bool := decide (450 ≤ off) && decide (off ≤ 550)
/-- `HB_IN` rises. -/
def hbWire (off : Nat) (s : State) : State :=
  if s.tdm.enable && inWindow off then heartbeatSeen { s with tdm := { s.tdm with wireGot := true } } else s
/-- A HEARTBEAT block. -/
def hbBlock (f : Nat) (active : Bool) (off : Nat) (s : State) : State :=
  if s.tdm.enable && inWindow off && f % 65536 == s.frame % 65536 then
    heartbeatSeen { s with tdm := { s.tdm with blockGot := true, partnerActive := active } } else s
/-- Offset 550 us without a heartbeat. -/
def hbMiss (s : State) : State :=
  if !s.tdm.enable || s.tdm.hbGot then s
  else
    let s := if s.tdm.hbRun = 0 then raiseM .tdmHbMissed 0 s else s
    { s with tdm := { s.tdm with hbRun := satAdd 255 s.tdm.hbRun 1, hbTotal := satAdd 0xFFFF s.tdm.hbTotal 1 } }

/-- A split ends because the partner is lost (Table 14.8): the seal stays and counts as a prune. -/
def splitLost (n : Nat) (s : State) : State :=
  let t := s.trk n
  if t.mode = .whole then s
  else
    let s := s.xfers.foldl (fun s x =>
      if !x.2.ended && x.2.trunk == n && (s.targetOf x.2).1 == .farSide then endXfer x.1 stPruned s else s) s
    let s := s.updTrk n (fun t => { t with mode := .whole, relayed := [], healAt := none })
    let s := raise 0 .splitEnded n t.splitK s
    if t.splitK = 0 then quarantine n s else pruneFar n (s.hubAt n t.splitK) s
/-- A standby whose partner is lost (R456): a changeover, with the claim starting now, or a refusal. -/
def standbyAlone (s : State) : State :=
  if !s.tdm.mirroredAtHb then raiseM .changeoverRefused 0 { s with tdm := { s.tdm with refused := true } }
  else if s.tdm.fenceIn && !s.straps.role then withdraw s
  else
    let s := { s with tdm := { s.tdm with changeoverDue := true, fenceOut := true } }
    s.pairTrunks.foldl (fun s n => if (s.trk n).state = .parked then
        emit (.signal n .idle) (s.updTrk n (fun t => { t with dtxen := true })) else s) s
/-- Three misses in a row (R443). -/
def partnerLost (s : State) : State :=
  if !s.tdm.enable || s.tdm.lost || decide (s.tdm.hbRun < 3) then s
  else
    let s := raiseM .tdmPartnerLost 0 { s with tdm := { s.tdm with lost := true } }
    let s := if s.tdm.active then s.pairTrunks.foldl (fun s n => splitLost n s) s else standbyAlone s
    pairUpdate { s with tdm := { s.tdm with partner := none, isMatch := false, partnerActive := false } }

/-! Records (R448). -/

/-- Transfers whose packets an acknowledged allowance lists (R460). -/
def markListed (l : List CatchEntry) (s : State) : State :=
  let hit := fun (x : Xfer) => match x.origin with
    | .ring k r n => l.any (fun e => match e with
        | .xfer c g i _ _ _ => c == k && g == r && i == n % 65536 | _ => false)
    | _ => l.any (fun e => match e with
        | .allow n a ep _ _ _ _ _ none _ => n == x.trunk && a == x.addr && ep == x.ep | _ => false)
  { s with xfers := s.xfers.map (fun x => if hit x.2 then (x.1, { x.2 with listed := true }) else x) }
/-- `CATCH_ACK` (R446, R448, R450, R454): the oldest record is acknowledged. -/
def catchAck (f : Nat) (s : State) : State :=
  match s.tdm.kept with
  | [] => s
  | r :: rest =>
    if !s.tdm.active || r.frame != f % 65536 then s
    else
      let full := s.tdm.fullFrame = some r.frame
      let s := markListed r.entries { s with tdm := { s.tdm with
        kept := rest, acked := r.frame, fenceHold := false,
        allow := r.entries.filter (fun e => match e with | .allow _ _ _ _ _ _ _ _ _ _ => true | _ => false),
        fullFrame := if full then none else s.tdm.fullFrame } }
      let s := if full ∧ s.tdm.pair = .joining then raiseM .mirrorReady 0 { s with tdm := { s.tdm with pair := .mirrored } } else s
      fenceObeyed (pairUpdate s)
/-- `CATCH_NAK` (R448): the record goes again, with every later one. -/
def catchNak (f : Nat) (s : State) : State :=
  let l := s.tdm.kept.dropWhile (fun r => r.frame != f % 65536)
  if !s.tdm.active || l.isEmpty then s
  else l.foldl (fun s r => sendRecord r s) { s with tdm := { s.tdm with resends := satAdd 0xFFFF s.tdm.resends 1 } }
/-- A received block: one with a bad CRC or a code violation is discarded and counted (R437, Table 14.9). -/
def fromBlock (b : RxBlk) (f : Nat → State → State) (s : State) : State :=
  match b with
  | .good num => f num.val s
  | .bad => if s.tdm.enable then { s with tdm := { s.tdm with crcBad := satAdd 0xFFFF s.tdm.crcBad 1 } } else s
/-- Block number `a` comes after `b`, modulo 4,096. -/
def blkAfter (a b : Nat) : Bool := decide ((a + 4096 - b % 4096) % 4096 < 2048)
/-- How many of the blocks received stand before block `num` (R437): all up to the last one it comes after. -/
def blkPlace (nums : List Nat) (num : Nat) : Nat := nums.length - (nums.reverse.takeWhile (fun x => !blkAfter num x)).length
/-- An entry arrives at the standby (R444): it takes its place by its block number (R437). -/
def catchEntry (num : Nat) (e : CatchEntry) (s : State) : State :=
  if s.tdm.active || !(s.tdm.pair == .joining || s.tdm.pair == .mirrored) then s
  else
    let i := blkPlace s.tdm.rxNums num
    { s with tdm := { s.tdm with
        rxEntries := s.tdm.rxEntries.take i ++ e :: s.tdm.rxEntries.drop i,
        rxNums := s.tdm.rxNums.take i ++ num :: s.tdm.rxNums.drop i } }
/-- A split that a LINE entry shows makes the partner claim its part at the next boundary (Table 14.6). -/
def splitSeen (e : CatchEntry) (s : State) : State :=
  match e with
  | .line n _ _ _ _ _ _ _ true k _ =>
    let t := s.trk n
    if t.mode = .whole ∧ t.state = .parked ∧ s.pairFed n then
      claimNext n (s.updTrk n (fun t => { t with mode := .split, splitK := k, splitAt := s.frame, healClean := 0, healAt := none }))
    else s
  | _ => s
/-- A record is good: acknowledged and applied (R448, R451, R461, R462). -/
def takeRecord (c : CatchClose) (s : State) : State :=
  let l := s.tdm.rxEntries
  let s := sendMsg .catchAck 1 (.tdmAck c.frame) (takeEpoch (c.epoch % 256) s)
  let s := { s with tdm := { s.tdm with
    rxFrame := some c.frame, rxNak := none, rxEntries := [], rxNums := [], rxRecord := l, base := l.foldl mergeEntry s.tdm.base,
    pair := if c.full then .mirrored else s.tdm.pair, changeoverDue := s.tdm.changeoverDue || c.handover } }
  let s := if c.full then raiseM .mirrorReady 0 s else s
  let s := l.foldl (fun s e => match e with | .node _ _ b => applyNode b s | _ => s) s
  l.foldl (fun s e => splitSeen e s) s
/-- `CLOSE` (R448): its count, its CRC and its place in the order are checked. -/
def catchEnd (c : CatchClose) (s : State) : State :=
  if s.tdm.active || !(s.tdm.pair == .joining || s.tdm.pair == .mirrored) then s
  else
    let want := s.tdm.rxFrame.map (fun f => (f + 1) % 65536)
    let drop := fun (f : Nat) (s : State) =>
      sendMsg .catchAck 1 (.tdmNak f) { s with tdm := { s.tdm with rxEntries := [], rxNums := [], rxNak := some f } }
    let inOrder := c.full || want == some c.frame || (want.isNone && s.tdm.rxNak.isNone)
    if !inOrder then drop (want.getD c.frame) s
    else if c.count ≠ s.tdm.rxEntries.length ∨ c.crc ≠ recordCrc s.tdm.rxEntries then drop c.frame s
    else takeRecord c s
/-- Lag (R449), at a boundary. -/
def lagBoundary (s : State) : State :=
  if !s.builds then { s with tdm := { s.tdm with lag := false } }
  else if s.tdm.kept.isEmpty then
    if s.tdm.lag then raiseM .mirrorLagClear 0 { s with tdm := { s.tdm with lag := false } } else s
  else if s.tdm.lag then s
  else raiseM .mirrorLag 0 { s with tdm := { s.tdm with lag := true } }

/-! Claims (R452, R453). -/

/-- A claim meets the sleep scopes of its trunk (Table 6.13): the claimant's IDLE detaches the dormant hubs of a far-side
or trunk suspend, which attach again, and with the first of them everything behind it; a port suspend persists. -/
def meetSleep (n : Nat) (s : State) : State :=
  let t := s.trk n
  let dormant := t.sleep.deep || t.hubs.any (fun h => h.2.far.deep)
  let s := s.updTrk n (fun t => { t with
    sleep := .awake, hubs := t.hubs.foldl (fun h p => Tab.upd {} p.1 (fun x => { x with far := .awake }) h) t.hubs })
  if dormant then detachNode n (s.hubAt n 1) 0 s else s
/-- A trunk is claimed in this frame (R452): only its SOF goes out. -/
def claimPort (n : Nat) (s : State) : State :=
  (meetSleep n s).updTrk n (fun t =>
    { t with state := .running, dtxen := !s.gated, claimAt := none, claiming := true, claimFrame := true, claimConfirm := false,
             claimTries := 0, headIdle := false })
/-- The claims due at this boundary share one new epoch. -/
def claimBoundary (s : State) : State :=
  let l := s.pairTrunks.filter (fun n => match (s.trk n).claimAt with | some f => decide (f ≤ s.frame) | none => false)
  if l.isEmpty then s
  else if !s.tdm.epochValid then
    cfgReject 0 (tdmOffset 0) (l.foldl (fun s n => s.updTrk n (fun t => { t with claimAt := none })) s)
  else l.foldl (fun s n => claimPort n s) { s with tdm := { s.tdm with epoch := (s.tdm.epoch + 1) % 256 } }
/-- A claim is confirmed by a HOP_REQ in each of the three frames after its claim frame (R453). -/
def confirmBoundary (n : Nat) (s : State) : State :=
  let t := s.trk n
  if !t.claiming then s
  else s.updTrk n (fun t => { t with claimFrame := false, claimConfirm := decide (t.claimTries < 3) })
/-- `CLAIM_FAILED` (R453). -/
def claimFail (n : Nat) (s : State) : State :=
  let t := s.trk n
  if !t.claiming || t.claimTries < 3 || t.slots.any (fun x => x.purpose == .claimConfirm) then s
  else quarantine n (raise 0 .claimFailed n 0 (s.updTrk n (fun t => { t with claiming := false, claimConfirm := false })))

/-! Changeover and handover (R456 to R462). -/

/-- Frames in `a` to `c`, `a` excluded, in which an entry is due (R238). -/
def Alm.dueBetween (x : Alm) (a c : Nat) : Nat :=
  (c + 2 ^ x.ilog2 - x.phase) / 2 ^ x.ilog2 - (a + 2 ^ x.ilog2 - x.phase) / 2 ^ x.ilog2
/-- The occurrences of the frames without SOF count missed (R457). -/
def missGap (a c : Nat) (s : State) : State :=
  s.ctxs.foldl (fun s x =>
    let k := x.2.alm.dueBetween a c
    if x.2.used && s.pairFed x.2.trunk && x.2.alm.valid && decide (0 < k) then
      occEvent x.1 .pollMissed (updStat x.2.trunk x.2.owner (fun v => { v with missed := satAdd 0xFFFF v.missed k }) s)
    else s) s
/-- The far part of a split trunk, driven alone (Table 14.8): what lies beyond the break is pruned. -/
def aloneSplit (n : Nat) (s : State) : State :=
  let t := s.trk n
  if t.mode = .whole then s
  else
    let h := t.tailN - t.splitK
    let s := s.updTrk n (fun t => { t with mode := .whole, relays := [], healAt := none })
    if h = 0 then s else pruneFar n (s.hubAt n h) s
/-- The transfers of the new active unit whose target the acknowledged catch shows detached, pruned or quarantined
complete as a hot unplug would have them (R49, R214, Table 2.6); urgent ones wait (R485). -/
def loseTargets (s : State) : State :=
  s.xfers.foldl (fun s x =>
    let port := match x.2.origin with | .port _ _ => true | _ => false
    let r := s.targetOf x.2
    if x.2.ended || port || x.2.op == .bcast || !s.pairFed x.2.trunk || (x.2.urgent && r.1.cut) then s
    else if r.1 = .quarantined then endXfer x.1 (firstOf x.2.stopping stQuarantined) s
    else if r.1 = .pruned ∨ !r.2 then endXfer x.1 (firstOf x.2.stopping stPruned) s
    else s) s
/-- The changeover at boundary `s.frame` (R457). -/
def changeover (s : State) : State :=
  if !s.tdm.changeoverDue then s
  else if !s.tdm.epochValid then
    cfgReject 0 (tdmOffset 0) (becomeStandby s)
  else if s.tdm.fenceIn && !s.straps.role then withdraw s
  else
    let c := s.frame
    let a := match s.tdm.rxFrame with | some f => s.frameOf f | none => c - 1
    let s := { s with tdm := { s.tdm with active := true, fenceHold := true, changeoverDue := false, refused := false,
                                          claimFrame := c % 65536 } }
    let split := s.pairTrunks.filter (fun n => (s.trk n).mode != .whole)
    let s := loseTargets (applyBase (fun n => s.pairFed n && !split.contains n) s)
    let s := resendAll (missGap a c (split.foldl (fun s n => aloneSplit n s) s))
    let s := s.pairTrunks.foldl (fun s n =>
      let t := s.trk n
      if t.quarantined || !(t.state == .parked || t.state == .running) then s
      else s.updTrk n (fun t => { t with claimAt := some c })) s
    fenceDrive (raiseM .changeover (c % 65536) s)
/-- `TDM_CTRL.force_claim` (R456). -/
def forceClaim (s : State) : State :=
  if !s.responds .tdm || s.tdm.active then s
  else if s.tdm.paired && !s.tdm.refused then s
  else if !s.tdm.epochValid then cfgReject 0 (tdmOffset 0) s
  else if s.tdm.fenceIn && !s.straps.role then withdraw s
  else fenceDrive { s with tdm := { s.tdm with changeoverDue := true } }
/-- `TDM_CTRL.handover` (R462, Table 14.8). -/
def handOver (s : State) : State :=
  if !s.responds .tdm then s
  else if s.tdm.active && !s.tdm.fenced && s.tdm.pair == .mirrored
      && s.pairTrunks.all (fun n => (s.trk n).mode != .whole || (s.saturatedSeg n).isNone) then
    { s with tdm := { s.tdm with handover := true } }
  else cfgReject 0 (tdmOffset 0) s
/-- The boundary after the flagged record: the unit is standby (R460, R462). -/
def handBoundary (s : State) : State :=
  if s.tdm.handFrame.isSome then becomeStandby (endOwn s) else s

/-! Split trunks (R463 to R466). -/

/-- The unit is the split partner of trunk `n` (R461). -/
def State.isPartner (s : State) (n : Nat) : Bool := s.pairFed n && !s.tdm.active && (s.trk n).mode != .whole
/-- The hub next to the break, from this unit's end: its far side is sealed while the trunk is split. -/
def State.breakHub (s : State) (n : Nat) : Option Nat :=
  let t := s.trk n
  let h := if s.tdm.active then t.splitK else t.tailN - t.splitK
  if t.mode = .whole ∨ h = 0 then none else some (s.hubAt n h)
/-- The seal that is still to be sent: action 1 while split, 2 in the frame after a heal notice. -/
def State.sealDue (s : State) (n : Nat) : Option (Nat × Nat) :=
  let t := s.trk n
  match s.breakHub n with
  | none => none
  | some p =>
    if t.mode = .split then (if (t.hub p).sealed then none else some (p, 1))
    else match t.healAt with
      | some h => if s.frame = h + 1 ∧ (t.hub p).sealed then some (p, 2) else none
      | none => none
/-- A split is entered two boundaries after the frame of the saturation (Table 14.6). -/
def splitBoundary (n : Nat) (s : State) : State :=
  let t := s.trk n
  if t.mode = .split ∧ s.frame = t.splitAt + 2 then
    let s := raise 0 .splitEntered n t.splitK s
    if s.isPartner n then
      let far := fun (e : CatchEntry) => match e with
        | .allow m a _ _ _ _ _ _ _ _ => m == n && (match s.entryOf n a with
            | some (_, x) => decide (s.hopOf n x.hub ≤ t.tailN - t.splitK) | none => false)
        | _ => false
      resendSome far (applyBase (· == n) s)
    else s
  else s
/-- A relay request arrives (R464, R465). -/
def relayRequest (r : RelayReq) (s : State) : State :=
  if s.isPartner r.trunk then
    s.updTrk r.trunk (fun t => if t.relays.length < 16 then { t with relays := t.relays ++ [r] } else t)
  else s
/-- The transaction of a relay request. -/
def relayTxn (r : RelayReq) : Txn :=
  { slot := 0, kind := r.kind, purpose := .relay r.id r.longest, addr := r.addr, ep := r.ep, hub := r.hub, hop := 0, rs := r.rs }
/-- The transaction a result answers: a relayed one, or an occurrence of a far entry, numbered 16 + 8·address +
endpoint. -/
def State.relayedTxn (s : State) (r : RelayRes) : Option Txn :=
  if r.id < 16 then (s.trk r.trunk).relayed.find? (fun t => t.slot == r.id)
  else match s.ctxOf r.trunk ((r.id - 16) / 8) ((r.id - 16) % 8) with
  | some c => s.occTxn c
  | none => none
/-- A relay result (R464): applied as if this unit's port had received the response. -/
def relayResult (r : RelayRes) (s : State) : State :=
  let n : Nat := r.trunk
  match s.relayedTxn r with
  | none => s
  | some t =>
    let drop := fun (s : State) =>
      if r.id < 16 then s.updTrk n (fun k => { k with relayed := k.relayed.filter (fun x => x.slot != r.id) }) else s
    if r.ptype = 0 then attemptFailed n t (drop s)
    else if r.ptype = ptDataB then
      match t.xfer with
      | none => drop s
      | some i =>
        let (y, s) := if t.broken then (t, s) else bulkPacket n i t (r.sq % 16) r.te r.payload s
        if r.final then
          let s := drop s
          if y.bad then attemptFailed n y s else afterTxn i s
        else s.updTrk n (fun k => { k with relayed := k.relayed.map (fun x => if x.slot = r.id then { y with slot := r.id } else x) })
    else if t.kind == .bcast 0 [] || !hasUp t.kind then
      match t.xfer with | some i => bcastDone i (drop s) | none => drop s
    else goodAnswer n t r.ptype r.sq r.aux r.te r.payload 0 (drop s)
/-- `SPLIT_HEAL_CHECK` (R466): eight reads in a row that show the link. -/
def healCheck (n : Nat) (up : Bool) (s : State) : State :=
  let t := s.trk n
  if !s.isPartner n || t.mode != .split || s.frame ≤ t.splitAt || (s.frame - t.splitAt) % 128 ≠ 0 then s
  else
    let c := if up then t.healClean + 1 else 0
    let s := s.updTrk n (fun t => { t with healClean := c })
    if c < 8 then s
    else sendMsg .relay 1 (.tdmHeal n) (s.updTrk n (fun t => { t with mode := .healing, healAt := some s.frame }))
/-- A heal notice reaches the active unit (R466): it claims at boundary h + 2; with k = 0 it drives IDLE again. -/
def healNotice (n : Nat) (s : State) : State :=
  let t := s.trk n
  if t.mode != .split || !s.tdm.active then s
  else s.updTrk n (fun t => { t with mode := .healing, healAt := some s.frame, claimAt := some (s.frame + 2) })
/-- Boundaries of a heal: IDLE again at h + 1 with k = 0; whole at h + 2, where the partner parks. -/
def healBoundary (n : Nat) (s : State) : State :=
  let t := s.trk n
  match t.mode, t.healAt with
  | .healing, some h =>
    if s.frame = h + 1 ∧ s.tdm.active ∧ t.splitK = 0 then
      emit (.signal n .idle) (s.updTrk n (fun t => { t with dtxen := !s.gated }))
    else if h + 2 ≤ s.frame then
      let s := raise 0 .splitHealed n t.splitK s
      let s := s.updTrk n (fun t => { t with mode := .whole, healAt := none, relays := [] })
      if s.tdm.active then s else parkPort n s
    else s
  | _, _ => s

/-! Time over the link (R467, R469). -/

/-- The sample of a time exchange: half of a sum; the partner's time state (Table 13.2) and source (Table 13.1) are those
at the exchange (log 62). -/
def timeAnswer (t1 t2 t3 t4 : Int) (state source : Nat) (s : State) : State :=
    let th : Rat := (((t1 - t2) + (t4 - t3) : Int) : Rat) / 2
    let skew := decide (50000 ≤ absR th)
    let s := if skew then raiseM .tdmTimeSkew 0 s else s
    pairUpdate { s with tdm := { s.tdm with skewed := skew, partnerState := state % 4 + 4 * (source % 4) },
                        tim := { s.tim with partnerTheta := some th } }
/-- A TIME block: the partner's is answered with its stamps and the stamp of the send, the answer to ours gives a
sample and brings the partner's time state and source (R467). -/
def timeBlock (m : TimeMsg) (state source : Nat) (s : State) : State :=
  if !s.tdm.enable then s
  else
    match m with
    | .ask t1 t2 => sendMsg .time 1 (.tdmAnswer t1 t2 s.tim.ns) s
    | .answer t1 t2 t3 t4 => timeAnswer t1 t2 t3 t4 state source s

/-! Meanings. -/

/-- `TDM_LINK_ENABLE` (R474). -/
def execTdmLinkEnable (on : Bool) (s : State) : Host.Outcome State Fault Refusal := finish (linkEnable on s)
/-- `HANDOVER` (R462). -/
def execHandover (s : State) : Host.Outcome State Fault Refusal := finish (handOver s)
/-- `FORCE_CLAIM` (R456). -/
def execForceClaim (s : State) : Host.Outcome State Fault Refusal := finish (forceClaim s)
/-- `TDM_CTRL.clr_stat` (R475). -/
def tdmClear (s : State) : State :=
  if s.responds .tdm then { s with tdm := { s.tdm with hbRun := 0, hbTotal := 0, crcBad := 0, resends := 0 } } else s
/-- `TDM_CLR_STAT` (R475). -/
def execTdmClrStat (s : State) : Host.Outcome State Fault Refusal := finish (tdmClear s)
/-- `LANE_LOCK` (R436). -/
def execLaneLock (lane : Fin 4) (s : State) : Host.Outcome State Fault Refusal := finish (laneChange lane true s)
/-- `LANE_LOCK_LOST` (R471). -/
def execLaneLockLost (lane : Fin 4) (s : State) : Host.Outcome State Fault Refusal := finish (laneChange lane false s)
/-- `HEARTBEAT_SEND` (R442). -/
def execHeartbeatSend (s : State) : Host.Outcome State Fault Refusal := finish (heartbeat s)
/-- `HB_IN_EDGE` (R442). -/
def execHbInEdge (offUs : Nat) (s : State) : Host.Outcome State Fault Refusal := finish (hbWire offUs s)
/-- `RX_HEARTBEAT_BLOCK` (R442). -/
def execRxHeartbeatBlock (rx : RxBlk) (beat : Beat) (offUs : Nat) (s : State) : Host.Outcome State Fault Refusal :=
  finish (fromBlock rx (fun _ => hbBlock beat.frame beat.active offUs) s)
/-- `HEARTBEAT_MISS` (R442). -/
def execHeartbeatMiss (s : State) : Host.Outcome State Fault Refusal := finish (hbMiss s)
/-- `TDM_PARTNER_LOST` (R443). -/
def execTdmPartnerLost (s : State) : Host.Outcome State Fault Refusal := finish (partnerLost s)
/-- `RX_PAIR_BLOCK` (R439). -/
def execRxPairBlock (blk : Rcv PairBlock) (s : State) : Host.Outcome State Fault Refusal :=
  finish (fromBlock blk.rx (fun _ => pairBlock blk.body) s)
/-- `RX_CATCH_ENTRY` (R444). -/
def execRxCatchEntry (blk : Rcv CatchEntry) (s : State) : Host.Outcome State Fault Refusal :=
  finish (fromBlock blk.rx (fun num => catchEntry num blk.body) s)
/-- `RX_CATCH_CLOSE` (R448). -/
def execRxCatchClose (blk : Rcv CatchClose) (s : State) : Host.Outcome State Fault Refusal :=
  finish (fromBlock blk.rx (fun _ => catchEnd blk.body) s)
/-- `RX_CATCH_ACK` (R448). -/
def execRxCatchAck (blk : Rcv Nat) (s : State) : Host.Outcome State Fault Refusal :=
  finish (fromBlock blk.rx (fun _ => catchAck blk.body) s)
/-- `RX_CATCH_NAK` (R448). -/
def execRxCatchNak (blk : Rcv Nat) (s : State) : Host.Outcome State Fault Refusal :=
  finish (fromBlock blk.rx (fun _ => catchNak blk.body) s)
/-- `RX_RELAY_REQUEST` (R464). -/
def execRxRelayRequest (blk : Rcv RelayReq) (s : State) : Host.Outcome State Fault Refusal :=
  finish (fromBlock blk.rx (fun _ => relayRequest blk.body) s)
/-- `RX_RELAY_RESULT` (R464). -/
def execRxRelayResult (blk : Rcv RelayRes) (s : State) : Host.Outcome State Fault Refusal :=
  finish (fromBlock blk.rx (fun _ => relayResult blk.body) s)
/-- `SPLIT_HEAL_CHECK` (R466). -/
def execSplitHealCheck (trunk : Fin 8) (linkUp : Bool) (s : State) : Host.Outcome State Fault Refusal :=
  finish (healCheck trunk linkUp s)
/-- `RX_HEAL_NOTICE` (R466). -/
def execRxHealNotice (blk : Rcv (Fin 8)) (s : State) : Host.Outcome State Fault Refusal :=
  finish (fromBlock blk.rx (fun _ => healNotice blk.body) s)
/-- `RX_TIME_BLOCK` (R467). -/
def execRxTimeBlock (rx : RxBlk) (msg : TimeMsg) (state source : Nat) (s : State) : Host.Outcome State Fault Refusal :=
  finish (fromBlock rx (fun _ => timeBlock msg state source) s)
/-- `FENCE_IN_CHANGE` (R454). -/
def execFenceInChange (low : Bool) (s : State) : Host.Outcome State Fault Refusal := finish (fenceChange low s)
/-- `CLAIM_FAILED` (R453). -/
def execClaimFailed (trunk : Fin 8) (s : State) : Host.Outcome State Fault Refusal := finish (claimFail trunk s)

end Sys2Proof.Machine
end

