-- ==== Sys2Proof/Machine/Frame.lean ====
section
/-! DEFINITION. The frame: its boundary, its parts, the order of issue and the guard (R23, R24, R156, R232 to R233,
R244 to R256, R409, R477). -/

namespace Sys2Proof.Machine

/-! Start of frame (R23, R154, R156, R409). -/

/-- The quality code of a state (Table 13.2). -/
def TimState.quality : TimState → Nat
  | .unset => 3 | .locked => 0 | .vigil => 1 | .freeRun => 2
/-- The hop index whose delay the SOF of this frame carries, and the delay (R156). -/
def State.sofDelay (s : State) (n : Nat) : Nat × Nat :=
  let h := s.frame % 64 + 1
  let p := s.hubAt n h
  let x := (s.trk n).hub p
  if (s.hubsUp n).contains p && x.dlyValid then (h, x.dly) else (0, 0)
/-- An SOF goes out on a trunk (R23, R42, R220, R461, R463, R482, R484). -/
def State.sofGoes (s : State) (n : Nat) : Bool :=
  let t := s.trk n
  t.state == .running && t.dtxen && !t.quarantined && !t.headIdle && !s.sofStopped n
    && !(t.mode != .whole && s.tdm.active && t.splitK == 0)
    && (!s.pairFed n || s.tdm.active || t.mode != .whole)
/-- Send an SOF; `edge` is the distance from the boundary to the first LCLK edge. -/
def sendSof (edge n : Nat) (s : State) : State :=
  let d := s.sofDelay n
  emit (.packet n (sofPkt (s.frame % 65536) s.tim.state.quality (s.tim.ns + edge) d.1 d.2 s.tdm.epoch)) s

/-! What a boundary puts in force (R5, R13). -/

/-- The heartbeats of the frame that ends (R474): a frame counts for a first start when the partner's blocks showed
it not active, or nothing was heard while the link was enabled. -/
def heartbeatFrame (s : State) : State :=
  let m := s.tdm
  let fit := m.enable && ((m.blockGot && !m.partnerActive) || (!m.blockGot && !m.wireGot))
  { s with tdm := { m with
      hbClear := if fit then satAdd 255 m.hbClear 1 else 0, hbGot := false, blockGot := false, wireGot := false } }
/-- The written value comes into force. -/
def FReg.take {α : Type} (f : FReg α) : FReg α := { f with inForce := f.written }
/-- Policies of a buffer come into force. -/
def Epm.take (e : Epm) : Epm :=
  { e with withhold := e.withhold.take, stageWait := e.stageWait.take, repeats := e.repeats.take }
/-- A crew's share comes into force (R275). -/
def shareBoundary (s : State) : State :=
  s.crews.foldl (fun s c =>
    let f := c.2.share
    if f.written = f.inForce then s
    else raise c.1 .quotaChanged 255 (3 + f.written.1 * 256 + f.written.2 * 0x1000000)
      (s.updCrew c.1 (fun c => { c with share := c.share.take }))) s
/-- The class-F fields of every block. -/
def fieldsBoundary (s : State) : State :=
  let old := s.ros.evLog2.inForce
  let s := { s with ros := { s.ros with evLog2 := s.ros.evLog2.take }, cox := { s.cox with mgrWeight := s.cox.mgrWeight.take } }
  let s := s.trks.foldl (fun s t => s.updTrk t.1 (fun t => { t with urgentHold := t.urgentHold.take })) s
  let s := calBoundary (shareBoundary (updCtxs (fun _ c => c.used) (fun c => { c with epm := c.epm.take }) s))
  if s.ros.evLog2.inForce = old then s else replaceHubEvents s

/-! One trunk at a boundary. -/

/-- A rate change begins, or has ended and SOFs resume (R181, R182, Table 5.13). -/
def rateBoundary (n : Nat) (s : State) : State :=
  let t := s.trk n
  match t.rateChg with
  | some c =>
    if c.done then
      replaceAll n (s.updTrk n (fun t => { t.rateOver with state := .running }))
    else if c.resumed && (s.nextHop n 1).isNone then rateDone n s
    else s
  | none =>
    if !t.rateReq then s
    else
      let go := t.state == .running && t.quiesced && t.rate != t.rateEff && !t.quarantined
      s.updTrk n (fun t => { t with
        rateReq := false, rateChg := if go then some { start := s.frame, hop := (s.nextHop n 1).getD 1 } else none })
/-- The SOF, LRATE and electrical idle of the frame in which a rate change begins.  An LRATE has no target: its header holds
address 0 and endpoint 0 (DESIGN CHOICE, log 74). -/
def rateStart (n : Nat) (s : State) : State :=
  match (s.trk n).rateChg with
  | none => s
  | some c =>
    if c.electricalIdle || c.start != s.frame then s
    else
      let s := emit (.packet n (linePkt (hdrBytes (mkHdr ptLrate false false false 0 0 0 0 (s.trk n).rate)) [])) s
      emit (.signal n .electricalIdle) (s.updTrk n (fun t => { t with
        state := .rateChange, dtxen := false, rateChg := some { c with electricalIdle := true } }))
/-- No SOF came to the parked port, or no PAIR block named one, in the frame that ends (R441). -/
def parkedBoundary (n : Nat) (s : State) : State :=
  s.updTrk n (fun t => { t with parkedHop := 0, tailRun := if t.parkedHop = 0 then 0 else t.tailRun })
/-- Occurrences whose entry is due again: with attempts left they fail, not issued they are missed (R253, R255); a poll of
a suspended target counts as neither late nor missed (R217). -/
def occBoundary (n : Nat) (s : State) : State :=
  s.ctxs.foldl (fun s c =>
    let x := c.2
    if !x.used || x.trunk != n || !x.alm.valid || !x.alm.dueIn s.frame then s
    else if x.occ.waiting then failOcc c.1 s
    else if x.occ.late then
      (if (s.ctxReach c.1).1 == .sleeping || (s.ctxReach c.1).1 == .asleep then s.updCtx c.1 (fun y => { y with occ := {} })
       else missOcc c.1 s)
    else s) s
/-- The partner's plan follows the almanac of the acknowledged catches (R464). -/
def partnerPlan (n : Nat) (s : State) : State :=
  if !s.isPartner n then s
  else
    let s := updCtxs (fun _ c => c.used && c.trunk == n) (fun c => { c with alm := {} }) s
    s.tdm.base.foldl (fun s e => match e with | .alm m _ _ _ _ => if m == n then applyAlm e s else s | _ => s) s
/-- This unit issues an entry's occurrences: on a split trunk those of its own part (R464). -/
def State.ownPart (s : State) (n : Nat) (x : Ctx) : Bool :=
  let t := s.trk n
  t.mode == .whole || decide (s.hopOf n (((s.entry x.entry).map (·.hub)).getD 0) ≤ (if s.tdm.active then t.splitK else t.tailN - t.splitK))
/-- The plan of a frame begins (R233, R244, R247); `fresh` marks the boundary of a changeover, whose frame issues
nothing and counts its occurrences otherwise (R457). -/
def planFrame (n : Nat) (fresh : Bool) (s : State) : State :=
  let drives := (s.trk n).state == .running || (s.trk n).state == .rateChange
  let plan := if !drives || (fresh && s.pairFed n) then []
    else s.almResv n s.frame (s.fromTail n) (fun c => !s.ownPart n (s.ctx c))
  s.updTrk n (fun t => { t with
    part := 0, resv := plan, exchanges := [], nextOff := 0, turn := 0, phase2 := false, issued := false,
    urgentTold := false, hopWait := none, slotWaited := false, relayWaited := false, peakNow := t.slots.length,
    credit := [], deficit := [],
    c0 := if drives then (plan.map (fun r => r.off + r.d)).foldl max 0 |> (fun c => if c = 0 then s.p0 n else c) else t.c0 })
/-- The boundary on one trunk. -/
def trunkBoundary (edge : Nat) (fresh : Bool) (n : Nat) (s : State) : State :=
  let s := if (s.trk n).stopReq then stopNow n s else s
  let s := splitBoundary n (confirmBoundary n s)
  let s := hubSleep n (trunkSleep n (healBoundary n s))
  let s := attachBoundary n (probeBoundary n (walkBoundary n s))
  let s := rateBoundary n (holdCounts n s)
  let s := parkedBoundary n (partnerPlan n (occBoundary n s))
  let s := if s.sofGoes n then sendSof edge n s else s
  planFrame n fresh (rateStart n s)

/-- A frame in which some request waited for a tag is counted (Table 10.9). -/
def countTagWait (s : State) : State :=
  let short := s.tagShort
  { s with pci := { s.pci with
      tagWait := if s.pci.tagWaited || short then satAdd 0xFFFFFFFF s.pci.tagWait 1 else s.pci.tagWait, tagWaited := short } }
/-- `FRAME_BOUNDARY` (R23, R24, R409): device time stands at the next boundary. -/
def frameBoundary (s : State) : State :=
  if !s.tim.running then s
  else
    let b := s.tim.nextBoundary
    let t := s.tim.reach b
    let edge := Config.lclkEdge s.freeCtr
    let s := { s with freeCtr := s.freeCtr + 1, frame := b / nsPerFrame,
                      tim := { t with nextBoundary := ceilDiv (b + nsPerFrame) nsPerFrame * nsPerFrame } }
    let s := lagBoundary (almBoundary (fieldsBoundary (heartbeatFrame (countTagWait s))))
    let s := handBoundary s
    let was := s.tdm.active
    let s := changeover s
    let fresh := !was && s.tdm.active
    let s := claimBoundary s
    let s := (List.range 8).foldl (fun s n => trunkBoundary edge fresh n s) s
    rosProgress s

/-! The controller's own transactions of the control-and-bulk part (R175, R182, R199, R453, R457, R464, R480). -/

/-- The unit drives trunk `n` and may issue there, the hold apart. -/
def State.drivesNow (s : State) (n : Nat) : Bool :=
  let t := s.trk n
  !t.quarantined && !t.claimFrame && !t.headIdle && !s.sofStopped n
    && (!s.pairFed n || (s.tdm.active && !s.tdm.fenced) || s.isPartner n)
/-- It may issue its own transactions there. -/
def State.mayOwn (s : State) (n : Nat) : Bool := s.drivesNow n && (s.trk n).state == .running && !(s.trk n).hold
/-- No transaction of a purpose is in flight. -/
def Trk.idleOf (t : Trk) (p : Purpose) : Bool := t.slots.all (fun x => x.purpose != p)
/-- Address of the hub at position `p`; 0 where none is known. -/
def State.hubAddr (s : State) (n p : Nat) : Nat := ((s.entryAt n p 0).map (·.2.addr)).getD 0
/-- A HOP_REQ to hop index `h`; its echo value is open (log 1). -/
def hopTxn (p : Purpose) (n h attempt : Nat) (s : State) : Txn :=
  let hub := s.hubAt n h
  { slot := 0, kind := .hopReq (Config.freeNat s.freeCtr % 256), purpose := p, addr := s.hubAddr n hub, ep := 0, hub := hub,
    hop := h, attempt := attempt }
/-- The transaction of an ALLOW packet, alone. -/
def resendKind : CatchEntry → Option TxnKind
  | .allow _ a _ ty sq te _ aux _ b =>
    if ty = ptDataP then some (.dataP (sq % 2 == 1) b)
    else if ty = ptSetup then some (.setup aux b)
    else if ty = ptBcast then some (.bcast a b)
    else if ty = ptDataB then some (.dataB [(sq, te, b)])
    else none
  | _ => none
/-- A resend still to be sent: no outcome, not left to its entry's occurrence, not in flight. -/
def State.resendWaits (s : State) (n : Nat) (r : Resend) : Bool :=
  r.outcome.isNone && !r.viaOcc && (match r.entry with | .allow m _ _ _ _ _ _ _ _ _ => m == n | _ => false)
    && (s.trk n).slots.all (fun t => !(t.purpose == .resend && r.of n t))
/-- Packets of one endpoint that go as one burst: up to 8 DATA_B in a row. -/
def burstOf : List Resend → Nat → Nat → Nat → List (Nat × Bool × List Byte)
  | [], _, _, _ => []
  | r :: rest, a, ep, room =>
    match r.entry, room with
    | .allow _ a' ep' ty sq te _ _ _ b, k + 1 => if a' = a ∧ ep' = ep ∧ ty = ptDataB then (sq, te, b) :: burstOf rest a ep k else []
    | _, _ => []
/-- The next resend as a transaction (R457). -/
def State.resendTxn (s : State) (n : Nat) : Option Txn :=
  let l := s.tdm.resend.filter (s.resendWaits n)
  match l with
  | [] => none
  | r :: _ => match r.entry with
    | .allow _ a ep ty _ _ _ _ _ _ =>
      let hub := if ty = ptBcast then 0 else ((s.entryOf n a).map (·.2.hub)).getD 0
      let kind := if ty = ptDataB then some (.dataB (burstOf l a ep 8)) else resendKind r.entry
      kind.map (fun k => { slot := 0, kind := k, purpose := .resend, addr := if ty = ptBcast then 0 else a, ep := ep, hub := hub,
                           hop := 0, attempt := r.attempts + 1 })
    | _ => none
/-- A resend whose node cannot be reached ends there (log 40). -/
def dropResends (n : Nat) (s : State) : State :=
  let gone := fun (r : Resend) => r.outcome.isNone && !r.viaOcc && (match r.entry with
    | .allow m a _ ty _ _ _ _ _ _ => m == n && ty != ptBcast && (match s.entryOf n a with
        | some (_, e) => !e.attached || s.reach n e.hub e.port != .ok
        | none => true)
    | _ => false)
  if s.tdm.resend.any gone then
    ledgerStep { s with tdm := { s.tdm with
      resend := s.tdm.resend.map (fun r => if gone r then { r with outcome := some stPruned } else r) } }
  else s
/-- At the split partner a relayed SETUP waits for the transactions in flight to the endpoints it affects (R187, R464). -/
def State.farHeld (s : State) (n : Nat) (y : Txn) : Bool :=
  match y.kind with
  | .setup _ b => (s.trk n).inFlight.any (fun t => hasUp t.kind && t.addr == y.addr && affects b t.ep)
  | _ => false
/-- A relayed request keeps the occurrences of a far endpoint off the line until its status stage has ended
(R187, R464). -/
def State.farBlocked (s : State) (n a ep : Nat) : Bool :=
  (s.trk n).farSetup.any (fun f => f.1 == a && affects f.2.1 ep)
/-- The controller's own transactions that could go now, in order. -/
def State.ownTxns (s : State) (n : Nat) : List Txn :=
  let t := s.trk n
  let rate := match t.rateChg with
    | some c => if t.state == .rateChange && c.resumed && !c.done && decide (c.start < s.frame) && decide (c.tries < 3)
        && s.drivesNow n && t.idleOf .rateConfirm then [hopTxn .rateConfirm n c.hop (c.tries + 1) s] else []
    | none => []
  if !s.mayOwn n then rate
  else
    let measure := match t.hopWait with
      | some (h, a) => if t.idleOf .measure then [hopTxn .measure n h a s] else []
      | none => []
    let claim := if t.claimConfirm then [hopTxn .claimConfirm n 1 (t.claimTries + 1) s] else []
    let walk := match t.walk with
      | some w => if t.idleOf .walk then [hopTxn .walk n w.cur (w.tries + 1) s] else []
      | none => []
    let shut := match s.sealDue n with
      | some (p, a) => if t.idleOf .seal then
          [({ slot := 0, kind := .claim s.tdm.epoch a, purpose := .seal, addr := s.hubAddr n p, ep := 0, hub := p, hop := 0 } : Txn)] else []
      | none => []
    rate ++ measure ++ claim ++ walk ++ shut ++ (s.resendTxn n).toList ++ (t.relays.map relayTxn).filter (fun y => !s.farHeld n y)
/-- What issuing one of them does beside taking its slot. -/
def ownIssued (n : Nat) (t : Txn) (s : State) : State :=
  let s := { s with freeCtr := s.freeCtr + 1 }
  match t.purpose with
  | .measure => s.updTrk n (fun k => { k with hopWait := none })
  | .claimConfirm => s.updTrk n (fun k => { k with claimConfirm := false, claimTries := k.claimTries + 1 })
  | .relay id _ => s.updTrk n (fun k => { k with
      relays := k.relays.filter (fun r => r.id != id),
      farSetup := match t.kind with
        | .setup _ b => k.farSetup.filter (·.1 != t.addr) ++ [(t.addr, b, 0)]
        | _ => k.farSetup.filter (fun f => !(f.1 == t.addr && t.ep != 0 && affects f.2.1 t.ep)) })
  | _ => s
/-- The first of a list of transactions that fits, issued at its place (R235). -/
def issueOwn (n lim : Nat) (s : State) : List Txn → Option Nat × State
  | [] => (none, s)
  | t :: rest =>
    match s.placeNow n (s.quant n t) (hasUp t.kind) lim with
    | (some o, _) => (some (s.quant n t).cost, ownIssued n t (launch n t o false s))
    | (none, w) => issueOwn n lim (if w then s.updTrk n (fun k => { k with slotWaited := true }) else s) rest

/-! The urgent part (R244, R245). -/

/-- The rotation of the urgent part: at most one turn of each crew from `turn` on; the next frame starts one past the crew
that issued first (R244). -/
def urgentTurns (n lim : Nat) : Nat → State → Bool × State
  | 0, s => (false, s)
  | fuel + 1, s =>
    let t := s.trk n
    let k := (t.urgentPtr + t.turn) % 64
    match crewTurn n k lim none true s with
    | (.issued _, s) =>
      (true, s.updTrk n (fun t =>
        if t.urgentTold then { t with turn := (t.turn + 1) % 64 }
        else { t with urgentTold := true, urgentPtr := (k + 1) % 64, turn := 0 }))
    | (.waits, s) => (false, s)
    | (.passes, s) => urgentTurns n lim fuel (s.updTrk n (fun t => { t with turn := (t.turn + 1) % 64 }))
/-- Issue the next urgent transaction. -/
def urgentIssue (n : Nat) (s : State) : State :=
  let lim := s.p0 n
  let far := (s.trk n).relays.filter (·.urgent)
  match (if s.mayOwn n && s.isPartner n then
      issueOwn n lim s ((far.map relayTxn).filter (fun y => !s.farHeld n y)) else (none, s)) with
  | (some _, s) => s
  | (none, s) => if s.mayIssue n then (urgentTurns n lim 64 s).2 else s

/-! The control-and-bulk part (R246 to R250). -/

/-- `bulk_min` of crew `k` in force (R246). -/
def State.bulkMin (s : State) (k : Nat) : Nat :=
  if k = 0 then 1024 - (s.img.applied.map (fun im => im.sumSec (·.bulkMin))).getD 0 else (s.crew k).share.inForce.1
/-- The phase-2 weight of crew `k` in force (R247). -/
def State.bulkWeight (s : State) (k : Nat) : Nat :=
  max 1 (if k = 0 then s.cox.mgrWeight.inForce else (s.crew k).share.inForce.2)
/-- The minimum credits of the frame (R246, R249). -/
def credits (n t : Nat) (s : State) : State :=
  (List.range 64).foldl (fun s k =>
    if s.hasWork n k then
      s.updTrk n (fun x => { x with credit := Tab.put 0 k (s.bulkMin k * t / 1024 + (Tab.get {} (s.crew k).stat n).carry) x.credit })
    else if (Tab.get {} (s.crew k).stat n).carry = 0 then s
    else updStat n k (fun v => { v with carry := 0 }) s) s
/-- The first waiting crew of the rotation from `p` on. -/
def State.firstWaiting (s : State) (n p : Nat) : Option Nat :=
  ((List.range 64).map (fun i => (p + i) % 64)).find? (s.hasWork n)
/-- Some waiting crew has a transaction that fits before the guard (R247). -/
def State.someFits (s : State) (n : Nat) : Bool :=
  (List.range 64).any (fun k => (s.choose n 9700 none (s.nextOf n k false)).pick.isSome)
/-- A round of phase 2 begins: every waiting crew's deficit grows by its weight. -/
def addWeights (n : Nat) (s : State) : State :=
  (List.range 64).foldl (fun s k => if s.hasWork n k then
    s.updTrk n (fun t => { t with deficit := Tab.upd 0 k (· + s.bulkWeight k * 10) t.deficit }) else s) s
/-- Turns of both phases until one issues, waits for a line slot, or nothing fits: phase 1 ends when a whole round issues
nothing. -/
def shareTurns (n : Nat) : Nat → State → State
  | 0, s => s
  | fuel + 1, s =>
    let t := s.trk n
    if 64 ≤ t.turn then
      if !t.phase2 && t.issued then shareTurns n fuel (s.updTrk n (fun t => { t with turn := 0, issued := false }))
      else if s.someFits n then shareTurns n fuel (addWeights n (s.updTrk n (fun t => { t with turn := 0, phase2 := true })))
      else s.updTrk n (fun t => { t with phase2 := true })
    else
      let k := (t.rotStart + t.turn) % 64
      let next : State → State := fun s => s.updTrk n (fun t => { t with turn := t.turn + 1 })
      if !s.hasWork n k then shareTurns n fuel (next s)
      else match crewTurn n k 9700 (some (Tab.get 0 (if t.phase2 then t.deficit else t.credit) k)) false s with
      | (.issued c, s) => next (s.updTrk n (fun t =>
          if t.phase2 then { t with deficit := Tab.upd 0 k (· - c) t.deficit }
          else { t with credit := Tab.upd 0 k (· - c) t.credit, issued := true }))
      | (.waits, s) => s
      | (.passes, s) => shareTurns n fuel (next s)
/-- Issue the next transaction of the control-and-bulk part. -/
def shareIssue (n : Nat) (s : State) : State :=
  let s := if s.mayOwn n then dropResends n s else s
  match issueOwn n 9700 s (s.ownTxns n) with
  | (some _, s) => s
  | (none, s) => if s.mayIssue n then shareTurns n 131072 s else s

/-! Occurrences (R252, R253, R464). -/

/-- An occurrence comes to its offset: its reservation ends, and stands again only as that of a transaction issued there
(R235). -/
def takePlan (n c : Nat) (s : State) : State :=
  s.updTrk n (fun t => { t with resv := t.resv.filter (fun r => r.planned ≠ some c) })
/-- An occurrence comes to its offset, or to C0 where it has none (Table 7.5). -/
def occCome (n c : Nat) (off : Option Nat) (s : State) : State :=
  let x := s.ctx c
  let t := s.trk n
  if t.hold || t.claimFrame || t.state == .rateChange then missOcc c s
  else if x.halted || s.ctxReach c != (.ok, true) || s.blocked n x.addr x.ep none then s
  else if !x.permits then s.updCtx c (fun x => { x with epm := { x.epm with withheld := satAdd 0xFFFF x.epm.withheld 1 } })
  else
    let late := s.updCtx c (fun x => { x with occ := { x.occ with late := true, tg := some x.occT } })
    match off, s.occTxn c with
    | some o, some y =>
      if s.allowed n y && !s.ctxBusy n c && !s.oneFirst c && t.freeSlot.isSome then issueOcc c y (launch n y o true s) else late
    | _, _ => late
/-- The partner issues a far entry's occurrence; its OUT data come from the allowance of the last catch (R464). -/
def farCome (n c : Nat) (o : Nat) (s : State) : State :=
  let x := s.ctx c
  let hub := ((s.entry x.entry).map (·.hub)).getD 0
  let out := s.tdm.rxRecord.findSome? (fun e => match e with
    | .allow m a ep ty sq _ _ _ _ b => if m = n ∧ a = x.addr ∧ ep = x.ep ∧ ty = ptDataP then some (TxnKind.dataP (sq % 2 == 1) b) else none
    | _ => none)
  let kind := if x.kind = 1 then some (.tokenP x.e) else out
  match kind with
  | none => s
  | some k =>
    let y : Txn := { slot := 0, kind := k, purpose := .relay (16 + 8 * x.addr + x.ep) x.longest, addr := x.addr, ep := x.ep,
                     hub := hub, hop := 0 }
    if x.halted || s.ctxReach c != (.ok, true) || (s.trk n).freeSlot.isNone || s.blocked n x.addr x.ep none
        || s.farBlocked n x.addr x.ep then s
    else launch n y o true s
/-- `OCCURRENCE_ISSUE` (R252): an occurrence planned in this frame reaches its offset in force. -/
def occReached (c : Nat) (s : State) : State :=
  let n := (s.ctx c).trunk
  match (s.trk n).resv.find? (fun r => r.planned == some c) with
  | none => s
  | some r =>
    let s := takePlan n c s
    if s.isPartner n then (if s.mayOwn n then farCome n c r.off s else s)
    else if !s.pairFed n || (s.tdm.active && !s.tdm.fenced) then occCome n c (some r.off) s
    else s
/-- Entries without an offset in force are late at once (R242, R253). -/
def unplacedLate (n : Nat) (s : State) : State :=
  if s.isPartner n then s
  else (s.almDue n s.frame (fun c => !s.ownPart n (s.ctx c))).foldl (fun s c =>
    if c.2.alm.off (s.fromTail n) = offNone then occCome n c.1 none s else s) s

/-! The parts of the frame. -/

/-- `URGENT_PART_START` (R245). -/
def urgentStart (n : Nat) (s : State) : State :=
  if (s.trk n).part ≠ 0 then s
  else urgentIssue n (tryQueues (fun x => x.trunk == n) (s.updTrk n (fun t => { t with
    part := 1, turn := 0, nextOff := max t.nextOff (29 * tau t.rateNow) })))
/-- `CONTROL_BULK_START` (R175, R246): the frame's HOP_REQ, then the credits. -/
def bulkStart (n : Nat) (s : State) : State :=
  if 2 ≤ (s.trk n).part then s
  else
    let h := s.frame % 256 + 1
    let p := s.hubAt n h
    let measured := (s.hubsUp n).contains p && s.hopOf n p == h && s.reach n p 0 == .ok && s.mayOwn n
    let s := s.updTrk n (fun t => { t with
      part := 2, turn := 0, issued := false, phase2 := false, nextOff := max t.nextOff t.c0,
      hopWait := if measured then some (h, 1) else none })
    let s := unplacedLate n (tryQueues (fun x => x.trunk == n) s)
    let r := if measured then issueOwn n 9700 s [hopTxn .measure n h 1 s] else (none, s)
    let s := credits n (9700 - (s.trk n).c0 - r.1.getD 0) r.2
    let old := (s.trk n).sharePtr
    s.updTrk n (fun t => { t with
      rotStart := old, sharePtr := match s.firstWaiting n old with | some k => (k + 1) % 64 | none => old })
/-- `TRANSACTION_ISSUE` (R245, R247). -/
def nextIssue (n : Nat) (s : State) : State :=
  let s := tryQueues (fun x => x.trunk == n) s
  if (s.trk n).part = 1 then urgentIssue n s
  else if (s.trk n).part = 2 then shareIssue n s
  else s
/-- The guard on one trunk: the counters settle, the credits carry (R249, R251, R465, R477). -/
def trunkGuard (n : Nat) (s : State) : State :=
  let t := s.trk n
  let s := trySplit n (settle n s)
  let s := if t.part = 2 then
    (List.range 64).foldl (fun s k => updStat n k (fun v => { v with carry := min 2560 (Tab.get 0 t.credit k) }) s) s else s
  s.updTrk n (fun t => { t with
    part := 3, c0Last := t.c0, slotsPeak := t.peakNow, hopWait := none,
    slotWait := if t.slotWaited then satAdd 0xFFFFFFFF t.slotWait 1 else t.slotWait,
    relayWait := if t.relayWaited then satAdd 0xFFFF t.relayWait 1 else t.relayWait })
/-- `FRAME_GUARD` (R444, R477). -/
def frameGuard (s : State) : State :=
  catchClose ((List.range 8).foldl (fun s n => trunkGuard n s) s)

/-- `FRAME_BOUNDARY` (R23). -/
def execFrameBoundary (s : State) : Host.Outcome State Fault Refusal := finish (frameBoundary s)
/-- `URGENT_PART_START` (R245). -/
def execUrgentPartStart (trunk : Fin 8) (s : State) : Host.Outcome State Fault Refusal := finish (urgentStart trunk s)
/-- `OCCURRENCE_ISSUE` (R252). -/
def execOccurrenceIssue (ctx : Fin 16384) (s : State) : Host.Outcome State Fault Refusal := finish (occReached ctx s)
/-- `CONTROL_BULK_START` (R246). -/
def execControlBulkStart (trunk : Fin 8) (s : State) : Host.Outcome State Fault Refusal := finish (bulkStart trunk s)
/-- `TRANSACTION_ISSUE` (R247). -/
def execTransactionIssue (trunk : Fin 8) (s : State) : Host.Outcome State Fault Refusal := finish (nextIssue trunk s)
/-- `FRAME_GUARD` (R477). -/
def execFrameGuard (s : State) : Host.Outcome State Fault Refusal := finish (frameGuard s)

end Sys2Proof.Machine
end

