-- ==== Sys2Proof/Machine/Reads.lean ====
section
/-! DEFINITION. Host reads ending (R102, R269, R316, R323, R336, R341, R354, R544). -/

namespace Sys2Proof.Machine

/-- What arrived goes to whoever asked for it. -/
def readArrived (tag : Nat) (use : ReadFor) (data : Option (List Byte)) (s : State) : State :=
  match use with
  | .desc k r _ n => descArrived k r n data s
  | .link i => linkArrived i data s
  | .walk _ i => walkArrived i data s
  | .payload c i => payloadArrived tag c i data s
  | .push => pushArrived data s
  | .store => storeArrived data s
  | .chDesc c => chDescArrived c data s
  | .stageSrc c => sourceArrived c data s
  | .flush c => flushDone c data.isSome s
  | .discard _ => s

/-- A read ends: its tag is free, an error is logged on its function (R269), and a STOPPING channel that waited
for it may end (R357). -/
def readEnds (tag : Nat) (data : HostRead → Except AerKind (List Byte)) (s : State) : State :=
  match Keyed.find s.pci.tags tag with
  | none => s
  | some r =>
    let s := freeTag tag s
    let s :=
      match data r with
      | .ok d => readArrived tag r.use (some d) s
      | .error e => readArrived tag r.use none (logAer (some r.fn) r.addr e s)
    match r.use.channel with
    | some c => chStopDone c s
    | none => s

/-- The bytes of a read: as many as were asked for. -/
def readBytes (x : ReadResult) (len : Nat) : Except AerKind (List Byte) :=
  match x with
  | .data b => .ok ((b ++ List.replicate len 0).take len)
  | .unsupported => .error .unsupportedRequest
  | .aborted => .error .completerAbort

/-- `READ_COMPLETION` (R336). -/
def execReadCompletion (tag : Fin 64) (res : ReadResult) (s : State) : Host.Outcome State Fault Refusal :=
  finish (readEnds tag (fun r => readBytes res r.len) s)
/-- `COMPLETION_TIMEOUT` (R544). -/
def execCompletionTimeout (tag : Fin 64) (s : State) : Host.Outcome State Fault Refusal :=
  finish (readEnds tag (fun _ => .error .completionTimeout) s)
/-- `NAK_TIMEOUT` (R316): the endpoint answered only NAK in nak_frames frames; no waiting transfer fails on a held trunk
(R180). -/
def execNakTimeout (xfer : Fin 4096) (s : State) : Host.Outcome State Fault Refusal :=
  finish (match s.xfer xfer with
    | none => s
    | some x =>
      if !x.ended && decide (0 < x.nakFrames) && decide (x.nakFrames ≤ x.naks) && x.fin.isNone
          && !s.inSlot xfer x.trunk && !s.heldTrunk x.trunk then
        finishLine xfer stNakTimeout s
      else s)

end Sys2Proof.Machine
end

