-- ==== Sys2Proof/Machine/PowerReset.lean ====
section
/-! DEFINITION. Resets, start-up, power domains, configuration requests, the thermal trip and the supply of the
line ports (R109 to R125, R133 to R141, R538, R539). -/

namespace Sys2Proof.Machine

/-! What resets keep (Table 4.3, R116, R141, R451, R496, R513). -/

/-- The `PWR_RESET_CAUSE` bits of Table 4.9. -/
def cause (k : Nat) : BitVec 8 := 1#8 <<< k
/-- The hop-delay table of the time service, which a warm reset keeps (R434). -/
def State.hopTable (s : State) : Tab Trk :=
  s.trks.foldl (fun a t => Tab.put {} t.1
    { hubs := t.2.hubs.foldl (fun b h => Tab.put {} h.1
        { dly := h.2.dly, dlyValid := h.2.dlyValid, dlyRej := h.2.dlyRej } b) [] } a) []
/-- An image operation is cut off by a reset (Table 3.10): a commit leaves the counter somewhere between its old
value and the target, a key may or may not stand in its fuse. -/
def imgCut (s : State) : State :=
  match s.img.run with
  | none => s
  | some r =>
    if r.phase ≠ .blowing then s
    else if r.op = 4 then
      let (v, s) := freeValue s
      let n := (s.img.applied.map (·.hdr.rollback)).getD 0
      let c := s.fuse.rollback + v % (n - s.fuse.rollback + 1)
      { s with fuse := { s.fuse with rollback := c }, shadow := { s.shadow with rollback := c } }
    else
      let (v, s) := freeValue s
      if v % 2 = 0 then s
      else
        let (k, s) := freeBytes 32 s
        { s with fuse := { s.fuse with keyHash := some k }, shadow := { s.shadow with keyHash := some k } }
/-- `TPULSE` falls if it is high. -/
def pulseLow (s : State) : State := if s.tim.pulseHigh then emit (.tpulse false) s else s

/-- A power-on reset clears everything (R115): pins and fuses are not of the controller's state. -/
def powerOn (src : PorSource) (s : State) : State :=
  let s := pulseLow (imgCut s)
  { pins := { s.pins with testEn := s.pins.testEn || decide (src = .testEn) }, fuse := s.fuse,
    pwr := { stage := .porDelay, pllLock := false, pcieRefOk := s.pwr.pcieRefOk, on := 0 },
    tim := { running := false }, tdm := { fenceIn := s.tdm.fenceIn }, freeCtr := s.freeCtr, out := s.out,
    pending := s.pending }
/-- `PWR_RESET_CAUSE.thermal_trip` is set by the reset that finds a trip (Table 4.9). -/
def State.tripCause (s : State) : BitVec 8 := if s.pwr.tripped then cause 7 else 0
/-- A clock-fail reset clears everything outside PD0, and device time (R115, R137, R451). -/
def clockFail (c : ClockFault) (s : State) : State :=
  let lost := decide (c = .refclk)
  let s := { s with pins := { s.pins with refclkOk := s.pins.refclkOk && !lost } }
  if s.pwr.stage = .porDelay ∨ s.pwr.stage = .clockFailed then s
  else
    let s := pulseLow (imgCut s)
    let on : BitVec 24 := 1
    { pins := s.pins, straps := s.straps, fuse := s.fuse, shadow := s.shadow,
      pwr := { stage := if lost then .clockFailed else .pll, pllLock := false, pcieRefOk := s.pwr.pcieRefOk, on := on,
               wait := if lost then 0 else dbit 1, cause := s.pwr.cause ||| cause 1 ||| s.tripCause,
               strapsDue := true },
      tim := { running := false }, tdm := { fenceIn := s.tdm.fenceIn }, jtag := s.jtag, freeCtr := s.freeCtr, out := s.out,
      pending := s.pending }
/-- The domains that stay on through a warm reset (R120). -/
def warmDomains : BitVec 24 := dbit 0 ||| dbit 1 ||| dbit 21 ||| dbit 22
/-- A warm reset (R115, R120): everything outside PD0 and the time service is cleared, the calibration set up again
(R140); a trip ends with it once the reading has fallen, and until then PD2 stays on (R133). -/
def warmReset (bits : BitVec 8) (timer : Bool) (s : State) : State :=
  let s := imgCut s
  let stays := s.pwr.tripped && !s.pwr.tripCool
  timeSources (calSetup
    { pins := s.pins, straps := s.straps, fuse := s.fuse, shadow := s.shadow,
      pwr := { stage := .waitRelease, pllLock := s.pwr.pllLock, pcieRefOk := s.pwr.pcieRefOk,
               on := s.pwr.on &&& (warmDomains ||| if stays then dbit 2 else 0),
               cause := s.pwr.cause ||| bits ||| s.tripCause, releaseTimer := timer, tripped := stays },
      cal := Cal.fresh s.shadow.gradeX, tim := s.tim, trks := s.hopTable, tdm := s.tdm.fresh, frame := s.frame,
      pci := { aer := s.pci.aer }, jtag := s.jtag,
      freeCtr := s.freeCtr, out := s.out, pending := s.pending })
/-- A trigger of a warm reset acts once start-up has left S1 (R117). -/
def State.warmOk (s : State) : Bool := s.pwr.stage == .waitRelease || s.pwr.stage == .started

/-! Start-up (R109, R114, R120, R121, Table 4.4). -/

/-- The release point: S2 and S3 begin; while a trip stands, S2 alone (R121, R133). -/
def release (s : State) : State :=
  let stay := s.pwr.tripped
  let s := { s with pwr := { s.pwr with stage := .started, s2 := .running, s3 := if stay then .idle else .running,
                                        releaseTimer := false, strapsDue := false } }
  (2 :: if stay then [] else s3Domains).foldl (fun s d => reqDomain d s) s
/-- S1 ends once PD21 and PD22 are on: device time starts at 0 and the calibration is set up (R120, R140, R434).
After a clock-fail reset with `PERST_N` high, `RELEASE_POINT` brings the straps sampled there (R116, log 60). -/
def endS1 (s : State) : State :=
  if s.pwr.stage ≠ .pll ∨ !s.pwr.pllLock ∨ !s.isOn 21 ∨ !s.isOn 22 then s
  else
    let s := calSetup { s with pwr := { s.pwr with stage := .waitRelease }, cal := Cal.fresh s.shadow.gradeX }
    let r : Rat := ((-(s.calEff 10) : Int) : Rat)
    let s := { s with tim := { rate := r, held := r }, frame := 0 }
    if !s.pins.perstHigh then s
    else if s.pwr.strapsDue then { s with pwr := { s.pwr with releaseTimer := true } }
    else release s
/-- The end of the POR delay (R116, R120, R519). -/
def porDone (straps : Straps) (s : State) : State :=
  if s.pwr.stage ≠ .porDelay then s
  else reqDomain 1 { s with
    pins := { s.pins with testEn := false }, straps := straps, shadow := s.fuse, cal := Cal.fresh s.fuse.gradeX,
    pwr := { s.pwr with on := 1, stage := if s.pins.refclkOk then .pll else .clockFailed } }
/-- The root PLL locks (R109). -/
def pllLocks (s : State) : State :=
  if s.pwr.stage = .pll ∧ !s.pwr.pllLock ∧ s.isOn 1 ∧ s.pins.refclkOk then
    reqDomain 22 (reqDomain 21 { s with pwr := { s.pwr with pllLock := true } })
  else s
/-- REFCLK returns: start-up resumes at S1 (R137). -/
def refclkBack (s : State) : State :=
  let s := { s with pins := { s.pins with refclkOk := true } }
  if s.pwr.stage = .clockFailed then reqDomain 1 { s with pwr := { s.pwr with stage := .pll } } else s
/-- `PERST_N` is asserted (R115). -/
def perstOn (s : State) : State :=
  let was := s.pins.perstHigh
  let s := { s with pins := { s.pins with perstHigh := false, perstWait := false } }
  if was && s.warmOk then warmReset (cause 2) false s else s
/-- `PERST_N` is deasserted, or takes effect as VDDIO_33 returns (R116, R121, R538). -/
def perstHighNow (straps : Straps) (s : State) : State :=
  let s := { s with pins := { s.pins with perstHigh := true, perstWait := false } }
  if s.pwr.stage = .waitRelease ∧ !s.pwr.releaseTimer then release { s with straps := straps } else s
/-- `PERST_N` rises; while VDDIO_33 is low it counts as asserted (R538). -/
def perstUp (straps : Straps) (s : State) : State :=
  if s.pins.perstHigh then s
  else if s.pins.vddio33Ok then perstHighNow straps s
  else { s with pins := { s.pins with perstWait := true } }
/-- 10 µs after a Hot Reset, a DL_Down or a `PWR_RESET_CTRL` write, or the end of S1 after a clock-fail reset (R116,
R121). -/
def releaseNow (straps : Straps) (s : State) : State :=
  if s.pwr.stage ≠ .waitRelease ∨ !s.pwr.releaseTimer then s
  else if s.pins.perstHigh then release { s with straps := straps }
  else { s with pwr := { s.pwr with releaseTimer := false } }
/-- A warm reset from the PCIe interface, while it is up. -/
def linkReset (bits : BitVec 8) (s : State) : State :=
  if s.pwr.stage = .started ∧ s.isOn 2 then warmReset bits true s else s

/-- A domain reports power good (R110, R113, R114); none but PD0 and PD1 does before the root PLL locks (R109). -/
def domainGood (d : Nat) (s : State) : State :=
  if !s.pwr.wait.getLsbD d || !(domainNeeds d).all s.isOn || (!s.pwr.pllLock && decide (1 < d)) then s
  else
    let s := { s with pwr := { s.pwr with on := s.pwr.on ||| dbit d, wait := s.pwr.wait &&& ~~~ (dbit d) } }
    let s := endS1 s
    if d = 20 then imgPowered s else s
/-- A domain misses its time (R138): a domain of S3 leads to the loader state at the end of S3 (R123; log 56). -/
def domainLate (d : Nat) (s : State) : State :=
  if !s.pwr.wait.getLsbD d then s
  else
    let s := raiseM .pwrDomainFault d { s with pwr :=
      { s.pwr with wait := s.pwr.wait &&& ~~~ (dbit d), fault := s.pwr.fault ||| dbit d } }
    if d = 20 then imgFault s else s
/-- The SRAM sweep is done: S3 ends, S4 loads from flash or is the loader state (R120, R122, R138). -/
def sweepDone (t : Word) (s : State) : State :=
  if s.pwr.s3 ≠ .running ∨ !s.s3Settled then s
  else
    let s := { s with pwr := { s.pwr with s3 := .done, stageT1 := t, s4 := .running } }
    if s.straps.boot || !s.s3On then enterLoader (some t) s
    else reqDomain 20 { s with img := { s.img with run := some { op := 0, phase := .powerUp, slotB := s.straps.slot } } }
/-- S2 reaches Detect (R125). -/
def linkDetect (t : Word) (s : State) : State :=
  if s.pwr.s2 = .running ∧ s.isOn 2 then startCheck { s with pwr := { s.pwr with s2 := .done, stageT0 := t } } else s
/-- S5 ends with the image's domains switched (R111, R125). -/
def startDone (t : Word) (s : State) : State :=
  if s.pwr.s5 = .running ∧ s.pwr.wait &&& s.pwr.req = 0 then
    startCheck (raiseM .imgApplied 0 { s with pwr := { s.pwr with s5 := .done, stageT3 := t } })
  else s

/-! `PWR_DOMAIN_REQ` (R112, R136). -/

/-- The owner of a domain lets it go off (R136, R112). -/
def State.mayOff (s : State) (d : Nat) : Bool :=
  if d = 17 then !s.tdm.enable
  else if d = 23 then s.shadow.debugIntact
  else !(s.trk (d - 3)).started
/-- The bits of the register that this image gives a meaning. -/
def State.reqBits (s : State) : List Nat :=
  ((List.range 8).filter s.exists?).map (· + 3) ++ [17, 23]
/-- One bit of a write: whether it is dropped (R112, for that bit), and what it does. -/
def reqBit (value : Word) (d : Nat) (r : Bool × State) : Bool × State :=
  let s := r.2
  let new := value.getLsbD d
  if new = s.pwr.req.getLsbD d then r
  else if new then (r.1, reqDomain d { s with pwr := { s.pwr with req := s.pwr.req ||| dbit d } })
  else if !s.mayOff d then (true, s)
  else
    let s := if d = 17 ∧ s.tdm.active then becomeStandby s else s
    (r.1, offDomain d { s with pwr := { s.pwr with req := s.pwr.req &&& ~~~ (dbit d) } })
/-- The write would power off what runs (R136): class Q drops its line, tandem and debug fields (R16). -/
def State.reqRefused (s : State) (value : Word) : Bool :=
  s.reqBits.any (fun d => d ≠ 23 && s.pwr.req.getLsbD d && !value.getLsbD d && !s.mayOff d)
/-- A write of `PWR_DOMAIN_REQ`; while a trip stands, or no clock runs, it does nothing (R109, R133). -/
def domainReq (value : Word) (s : State) : State :=
  if !s.responds .clkPwr || s.pwr.tripped || !s.pwr.pllLock then s
  else if s.reqRefused value then cfgReject 0 0x020018 s
  else
    let r := s.reqBits.foldl (fun r d => reqBit value d r) (false, s)
    if r.1 then cfgReject 0 0x020018 r.2 else r.2

/-! Manager reset (R115, R118, R230, R265, R288, R297, R331, R360, R391, R406, R474, R496). -/

/-- What a manager reset leaves of a trunk: it stops at the next boundary. -/
def Trk.managerReset (t : Trk) : Trk :=
  let orphan : Txn → Txn := fun x => { x with xfer := none, ctx := none }
  let hub : Hub → Hub := fun h => { dly := h.dly, dlyValid := h.dlyValid, dlyRej := h.dlyRej, far := h.far, ports := h.ports }
  { t with
    stopReq := t.started, startWait := false, rateReq := false, tec := 0, tecWarn := false, quarantined := false,
    clean := 0, walk := none, unreach := 0, pruneAt := none, hubs := t.hubs.foldl (fun h p => Tab.upd {} p.1 hub h) t.hubs,
    slots := t.slots.map orphan, resv := [], exhausted := [], exchanges := [], c0 := 0, c0Last := 0, slotsPeak := 0, slotWait := 0,
    urgentPtr := 0, sharePtr := 0, rotStart := 0, credit := [], deficit := [], bseq := [], attach := none, attachQ := [],
    again := [], unacted := [], mode := .whole, relays := [], relayed := [], relayWait := 0, healAt := none, claimAt := none,
    claiming := false, claimFrame := false, claimConfirm := false, hopWait := none, tailN := 0, tailLearnt := false,
    tailRun := 0 }
/-- Every crew is torn down at once, without host writes. -/
def allCrewsGone (s : State) : State :=
  ((List.range 64).drop 1).foldl (fun s k =>
    if (s.crew k).st = .absent then s
    else
      let s := beginReset k true true (s.updCrew k (fun c => { c with bme := false }))
      finishReset k (loseSlots k s)) s
/-- An FLR of the manager function. -/
def managerReset (s : State) : State :=
  if s.pwr.stage ≠ .started || s.crs then s
  else
    let s := (List.range 4).foldl (fun s p => closePortNow 0 p (closePort 0 p s)) s
    let s := match s.cmd.run with | some (op, _) => endCmd op cwState s | none => s
    let s := rosDone stAborted (allCrewsGone s)
    let s := imgCut s
    let s := if s.img.run.isSome then offDomain 20 { s with img := { s.img with run := none, busy := false } } else s
    let e := (s.crew 0).evt
    let s := s.trks.foldl (fun s t => s.updTrk t.1 Trk.managerReset) s
    let s := { s with
      crews := Tab.put {} 0 { evt := { backlog := e.park.backlog } } [],
      ctxs := [], xfers := [], chs := [], arbs := [], cells := {}, cmd := { s.cmd with run := none, revoke := none },
      cox := { s.cox with busy := false, run := none }, fetchPtr := 0,
      pci := { maxPayload := s.pci.maxPayload, aer := s.pci.aer },
      ros := { s.ros with held := [], entries := s.ros.entries.map (fun e => (e.1, { e.2 with owner := 0 })) },
      tdm := s.tdm.fresh, pwr := { s.pwr with cause := s.pwr.cause ||| cause 6 ||| s.tripCause } }
    timeSources s

/-! Configuration requests (R123, R498, Table 16.1). -/


/-- The identification fields of Table 16.1; the last two stand for every function. -/
def idField (fn : Nat) (rev : Nat) : CfgField → Option Word
  | .vendorId => some (if fn = 0 then 0x1F6B else 0xFFFF)
  | .deviceId => some (if fn = 0 then 0x4840 else 0xFFFF)
  | .revisionId => some (BitVec.ofNat 32 (rev % 256))
  | .classCode => some 0x0C8000
  | .subsystemVendorId => some 0x1F6B
  | .subsystemId => some 0x4840
  | .interruptPin => some 0
  | _ => none

/-- A base address register: 64-bit and non-prefetchable memory (4 in its low bits); the upper half of a pair and a
register that is not there show 0 (Table 8.1). -/
def barField (fn : Nat) : CfgField → Option Word
  | .barKind b => some (if fn = 0 ∧ (b = 0 ∨ b = 2) then 4 else 0)
  | .barSize b => some (if fn = 0 ∧ b = 0 then 0x400000 else if fn = 0 ∧ b = 2 then 0x10000 else 0)
  | .vfBarKind b => some (if fn = 0 ∧ b = 0 then 4 else 0)
  | .vfBarSize b => some (if fn = 0 ∧ b = 0 then 0x10000 else 0)
  | _ => none

/-- Whether a function shows a capability (Tables 8.1 and 8.2): SR-IOV is the manager function's. -/
def capShown (fn : Nat) : CfgCap → Bool
  | .pciExpress => true
  | .msix => true
  | .sriov => fn == 0
  | .aer => true
  | .flr => true
  | .ats => false
  | .pri => false
  | .pasid => false
  | .msi => false
  | .ioSpace => false

/-- The MSI-X structure: 32 vectors; table and PBA in BAR2 of the manager, in BAR0 of a VF (Table 8.1). -/
def msixField (fn : Nat) : CfgField → Option Word
  | .msixVectors => some 32
  | .msixTableBar => some (if fn = 0 then 2 else 0)
  | .msixTable => some (if fn = 0 then 0x0000 else 0xE000)
  | .msixPba => some (if fn = 0 then 0x8000 else 0xF000)
  | _ => none

/-- The SR-IOV fields, of the manager function (Table 8.1). -/
def State.sriovField (s : State) : CfgField → Option Word
  | .initialVfs => some (BitVec.ofNat 32 s.crewMax)
  | .totalVfs => some (BitVec.ofNat 32 s.crewMax)
  | .numVfs => some (BitVec.ofNat 32 s.pci.numVfs)
  | .vfEnable => some (if s.pci.vfEnable then 1 else 0)
  | .firstVfOffset => some 1
  | .vfStride => some 1
  | .vfDeviceId => some 0x4841
  | .pageSizes => some 0x11
  | _ => none

/-- The request limits and the completion timeout (Tables 8.1 and 8.2): payload sizes 128 to 512 (code 2), ranges A
and B (3).  SR-IOV leaves them to the manager function. -/
def State.requestField (s : State) : CfgField → Option Word
  | .payloadSupported => some 2
  | .maxPayload => some (BitVec.ofNat 32 s.pci.maxPayload)
  | .maxRead => some (BitVec.ofNat 32 s.pci.maxRead)
  | .timeoutRanges => some 3
  | .timeoutDisable => some 0
  | .timeoutValue => some (BitVec.ofNat 32 s.pci.cto)
  | .tags8 => some 1
  | .tags10 => some 0
  | .linkWidth => some (BitVec.ofNat 32 (2 ^ Config.linkState.1.val))
  | .linkSpeed => some (BitVec.ofNat 32 (1 + Config.linkState.2.val))
  | _ => none

/-- A field a function shows by name; none: the manual states no value there. -/
def State.cfgField (s : State) (fn : Nat) (f : CfgField) : Option Word :=
  match f with
  | .capability c => some (if capShown fn c then 1 else 0)
  | .busMaster => some (if (s.crew fn).bme then 1 else 0)
  | .aerStatus => some (Tab.get 0 s.pci.aer fn)
  | f =>
    (idField fn s.shadow.siliconRev f).or ((barField fn f).or ((msixField fn f).or
      (if fn = 0 then (s.sriovField f).or (s.requestField f) else none)))

/-- The identification words of the header; what else configuration space holds at an offset is the PCI Express
specification's, and open. -/
def cfgWord (fn offset : Nat) (rev free : Nat) : Word :=
  let v := fun f => (idField fn rev f).getD 0
  if offset = 0 then (v .deviceId <<< 16) ||| v .vendorId
  else if offset = 8 then (v .classCode <<< 8) ||| v .revisionId
  else if offset = 0x2C then (v .subsystemId <<< 16) ||| v .subsystemVendorId
  else BitVec.ofNat 32 free
/-- A configuration request that reaches the controller over a PCIe link whose domain is on. -/
def cfgRequest (fn : Nat) (r : CfgReq) (s : State) : State :=
  if !s.isOn 2 then s
  else if s.crs then emit (.cfgReply fn true 0) s
  else if !s.fnExists fn then emit (.cfgReply fn false 0xFFFFFFFF) s
  else
    let done := emit (.cfgReply fn false 0)
    let sizes := [128, 256, 512, 1024, 2048, 4096]
    match r with
    | .read o =>
      let (v, s) := freeValue s
      emit (.cfgReply fn false (cfgWord fn o s.shadow.siliconRev v)) s
    | .show f =>
      let (v, s) := freeValue s
      emit (.cfgReply fn false ((s.cfgField fn f).getD (BitVec.ofNat 32 v))) s
    | .clearAer b => done { s with pci := { s.pci with aer := Tab.upd 0 fn (fun v => v &&& ~~~b) s.pci.aer } }
    | .setVfEnable => done (if fn = 0 then { s with pci := { s.pci with vfEnable := true } } else s)
    | .setNumVfs n => done (if fn = 0 ∧ !s.pci.vfEnable ∧ n ≤ s.crewMax then
        { s with pci := { s.pci with numVfs := n } } else s)
    | .setMaxPayload b => done (if fn = 0 ∧ [128, 256, 512].contains b then { s with pci := { s.pci with maxPayload := b } } else s)
    | .setMaxRead b => done (if fn = 0 ∧ sizes.contains b then { s with pci := { s.pci with maxRead := b } } else s)
    | .setCplTimeout c => done (if fn = 0 ∧ c < 16 then { s with pci := { s.pci with cto := c } } else s)

/-! Thermal trip and VDDIO_33 (R133, R538, R539). -/

/-- The trip acts: every line port is parked, most domains go off with what they hold (R113, R133).  Their request bits are
taken back, and a load of S4 ends without a loader state (DEDUCED, log 73). -/
def trip (s : State) : State :=
  if s.cal.tripRun < 4 ∨ s.pwr.tripped ∨ !s.responds .cal then s
  else
    let s := (List.range 8).foldl (fun s n => if (s.trk n).started then emit (.signal n .electricalIdle) s else s) s
    let s := raiseM .thermalTrip 0 { s with pwr := { s.pwr with tripped := true, tripCool := false } }
    let s := refuseImg imDomainFault s
    let s := [3, 4, 5, 6, 7, 8, 9, 10, 11, 12, 13, 14, 15, 16, 17, 18, 19, 20, 23].foldl (fun s d => offDomain d s) s
    let s := dropQueued (fun q => decide (q.req < 32)) (discardReads (fun u => u.channel.isSome) s)
    timeSources (updCtxs (fun _ c => c.used) (fun c => { c with alm := {}, occ := {}, epm := c.epm.zero, channel := none })
      { s with chs := [], cells := {}, pwr := { s.pwr with wait := 0, req := 0 } })
/-- VDDIO_33 falls below 2.8 V (R539). -/
def vddioLow (s : State) : State := allFault { s with pins := { s.pins with vddio33Ok := false } }
/-- VDDIO_33 is back (R538). -/
def vddioBack (straps : Straps) (s : State) : State :=
  let s := { s with pins := { s.pins with vddio33Ok := true } }
  if s.pins.perstWait then perstHighNow straps s else s

/-- `PWR_RESET_CTRL` (R119): warm with the key 0xA5. -/
def softWarm (value : Word) (s : State) : State :=
  if s.responds .clkPwr && value.getLsbD 0 && value.extractLsb' 8 8 == 0xA5#8 then linkReset (cause 5) s else s

/-! Meanings. -/

/-- `POWER_ON_RESET` (R115). -/
def execPowerOnReset (src : PorSource) (s : State) : Host.Outcome State Fault Refusal := finish (powerOn src s)
/-- `POR_DELAY_DONE` (R120). -/
def execPorDelayDone (straps : Straps) (s : State) : Host.Outcome State Fault Refusal := finish (porDone straps s)
/-- `PLL_LOCK` (R109). -/
def execPllLock (s : State) : Host.Outcome State Fault Refusal := finish (pllLocks s)
/-- `CLOCK_FAIL_RESET` (R137). -/
def execClockFailReset (cause : ClockFault) (s : State) : Host.Outcome State Fault Refusal := finish (clockFail cause s)
/-- `REFCLK_RETURN` (R137). -/
def execRefclkReturn (s : State) : Host.Outcome State Fault Refusal := finish (refclkBack s)
/-- `PERST_N_ASSERT` (R115). -/
def execPerstNAssert (s : State) : Host.Outcome State Fault Refusal := finish (perstOn s)
/-- `PERST_N_DEASSERT` (R121). -/
def execPerstNDeassert (straps : Straps) (s : State) : Host.Outcome State Fault Refusal := finish (perstUp straps s)
/-- `HOT_RESET` (R121). -/
def execHotReset (s : State) : Host.Outcome State Fault Refusal := finish (linkReset (cause 3) s)
/-- `DL_DOWN` (R121). -/
def execDlDown (s : State) : Host.Outcome State Fault Refusal := finish (linkReset (cause 4) s)
/-- `PWR_RESET_CTRL` (R119). -/
def execPwrResetCtrl (value : Word) (s : State) : Host.Outcome State Fault Refusal := finish (softWarm value s)
/-- `RELEASE_POINT` (R121). -/
def execReleasePoint (straps : Straps) (s : State) : Host.Outcome State Fault Refusal := finish (releaseNow straps s)
/-- `MANAGER_RESET` (R118). -/
def execManagerReset (s : State) : Host.Outcome State Fault Refusal := finish (managerReset s)
/-- `CONFIG_REQUEST` (R123). -/
def execConfigRequest (fn : Fin 64) (req : CfgReq) (s : State) : Host.Outcome State Fault Refusal :=
  finish (cfgRequest fn req s)
/-- `DOMAIN_POWER_GOOD` (R114). -/
def execDomainPowerGood (d : Fin 24) (s : State) : Host.Outcome State Fault Refusal := finish (domainGood d s)
/-- `DOMAIN_POWER_TIMEOUT` (R138). -/
def execDomainPowerTimeout (d : Fin 24) (s : State) : Host.Outcome State Fault Refusal := finish (domainLate d s)
/-- `SRAM_SWEEP_DONE` (R122). -/
def execSramSweepDone (tUs : Word) (s : State) : Host.Outcome State Fault Refusal := finish (sweepDone tUs s)
/-- `LTSSM_DETECT` (R125). -/
def execLtssmDetect (tUs : Word) (s : State) : Host.Outcome State Fault Refusal := finish (linkDetect tUs s)
/-- `S5_COMPLETE` (R125). -/
def execS5Complete (tUs : Word) (s : State) : Host.Outcome State Fault Refusal := finish (startDone tUs s)
/-- `PWR_DOMAIN_REQ` (R112). -/
def execPwrDomainReq (value : Word) (s : State) : Host.Outcome State Fault Refusal := finish (domainReq value s)
/-- `THERMAL_TRIP` (R133). -/
def execThermalTrip (s : State) : Host.Outcome State Fault Refusal := finish (trip s)
/-- `VDDIO33_LOW` (R539). -/
def execVddio33Low (s : State) : Host.Outcome State Fault Refusal := finish (vddioLow s)
/-- `VDDIO33_RESTORED` (R538). -/
def execVddio33Restored (straps : Straps) (s : State) : Host.Outcome State Fault Refusal := finish (vddioBack straps s)
/-- `PCIE_REF_OK_CHANGE` (R142). -/
def execPcieRefOkChange (ok : Bool) (s : State) : Host.Outcome State Fault Refusal :=
  finish { s with pwr := { s.pwr with pcieRefOk := ok } }

end Sys2Proof.Machine
end

