-- ==== Sys2Proof/Machine/Registers.lean ====
section
/-! DEFINITION. Register writes (R5, R16, R499 to R509, R512, R546): every writable register of BAR0, of the
manager's MSI-X table and of a crew window.  A class-Q field is dropped only where the write would change it
while its owner runs (R16). -/

namespace Sys2Proof.Machine

/-- Field of `n` bits at bit `lo` of a written word. -/
def fld (v : Word) (lo n : Nat) : Nat := v.toNat / 2 ^ lo % 2 ^ n
/-- The low half of an address register. -/
def setLo (a : Addr) (v : Word) : Addr := BitVec.ofNat 64 (a.toNat / 2 ^ 32 * 2 ^ 32 + v.toNat)
/-- The high half of an address register. -/
def setHi (a : Addr) (v : Word) : Addr := BitVec.ofNat 64 (v.toNat * 2 ^ 32 + a.toNat % 2 ^ 32)
/-- A class-Q write to a block that takes `write`: dropped with `CFG_REJECT` where it would change the register
(`same` is the register written with the values it holds) while the block is not quiesced (R16, R509). -/
def qWrite (fn off : Nat) (quiet same : Bool) (write : State → State) (s : State) : State :=
  if same then s else if quiet then write s else cfgReject fn off s

/-! Ring, queue, channel, port and event-ring registers, in BAR0 or a crew window. -/

/-- A ring register (Table 9.7). -/
def ringReg (acc : Acc) (k r reg : Nat) (v : Word) (s : State) : State :=
  let g := s.ring k r
  let q := fun (h : Ring) =>
    qWrite (accFn acc k) (ringOffset acc k r reg) (g.state == .disabled) (h == g) (·.updRing k r (fun _ => h)) s
  if !s.regOk acc k .rng then s
  else match reg with
  | 0x00 => q { g with base := setLo g.base v }
  | 0x04 => q { g with base := setHi g.base v }
  | 0x08 => q { g with sizeLog2 := fld v 0 5, cq := fld v 8 3 }
  | 0x0C => ringPi acc k r v s
  | 0x1C =>
    if v.getLsbD 1 then ringShutdown acc k r s
    else if v.getLsbD 2 then ringRestart acc k r s
    else if v.getLsbD 0 then ringEnable acc k r s else s
  | _ => s

/-- A completion-queue register (Table 9.7). -/
def cqReg (acc : Acc) (k c reg : Nat) (v : Word) (s : State) : State :=
  let g := s.cq k c
  let q := fun (h : Cq) =>
    qWrite (accFn acc k) (cqOffset acc k c reg) (!g.enabled) (h == g) (·.updCq k c (fun _ => h)) s
  if !s.regOk acc k .rng then s
  else match reg with
  | 0x00 => q { g with base := setLo g.base v }
  | 0x04 => q { g with base := setHi g.base v }
  | 0x08 => q { g with sizeLog2 := fld v 0 5, vector := fld v 8 5 }
  | 0x0C => cqHead acc k c v s
  | 0x18 =>
    if v.getLsbD 1 then cqDisableOp acc k c s else if v.getLsbD 0 then cqEnableOp acc k c s else s
  | _ => s

/-- A channel register (Table 10.10); of a work-ring channel only `DCH_STATUS` responds (R361), and the enable
is refused (R342). -/
def chReg (acc : Acc) (k c reg : Nat) (v : Word) (s : State) : State :=
  let g := s.ch c
  let q := fun (h : Ch) =>
    if s.isStream c then
      qWrite (accFn acc k) (chOffset acc c reg) (g.state == .disabled) (h == g) (·.updCh c (fun _ => h)) s
    else s
  if !s.chAccess acc k c then s
  else match reg with
  | 0x00 => q { g with ringBase := setLo g.ringBase v }
  | 0x04 => q { g with ringBase := setHi g.ringBase v }
  | 0x08 => q { g with sizeLog2 := fld v 0 4, record := v.getLsbD 8, dirOut := v.getLsbD 9, vector := fld v 16 5 }
  | 0x0C => chPi acc k c v s
  | 0x14 => q { g with circBase := setLo g.circBase v }
  | 0x18 => q { g with circBase := setHi g.circBase v }
  | 0x1C => q { g with w := fld v 0 5 }
  | 0x24 => q { g with cqBase := setLo g.cqBase v }
  | 0x28 => q { g with cqBase := setHi g.cqBase v }
  | 0x2C => q { g with cqSizeLog2 := fld v 0 4 }
  | 0x30 => chCqHead acc k c v s
  | 0x3C =>
    if v.getLsbD 1 then chStop acc k c s
    else if v.getLsbD 2 then chRestart acc k c s
    else if v.getLsbD 0 then chEnable acc k c s else s
  | _ => s

/-- `RXP_WIN`: window is class Q, threshold class I, each field on its own (R16, R381); one `CFG_REJECT` however
many fields are dropped (R509). -/
def rxpWin (k p off : Nat) (v : Word) (s : State) : State :=
  let x := s.rxp k p
  let w := fld v 0 13
  let t := fld v 16 13
  let badW := w != x.window && x.state != .closed
  let s := if w != x.window && x.state == .closed then s.updRxp k p (fun x => { x with window := w }) else s
  let y := s.rxp k p
  let badT := t == 0 || (y.state != .closed && decide (y.window < t))
  let s := if badT || t == y.threshold then s
    else s.updRxp k p (fun x => { x with threshold := t, above := decide (t ≤ x.level) })
  if badW || badT then cfgReject k off s else s

/-- A receive-port register (Table 11.11); `k` is 0 for the manager's ports in the CQ block. -/
def rxpReg (k p reg off : Nat) (v : Word) (s : State) : State :=
  let x := s.rxp k p
  if !s.portAccess k then s
  else match reg with
  | 0x00 =>
    let y := { x with ctx := fld v 0 14, packet := v.getLsbD 16, vector := fld v 24 5 }
    qWrite k off (x.state == .closed) (y == x) (·.updRxp k p (fun _ => y)) s
  | 0x04 => rxpWin k p off v s
  | 0x08 =>
    if v.getLsbD 1 then closePort k p s
    else if v.getLsbD 2 then (if x.state != .closed then flushPort k p s else s)
    else if v.getLsbD 0 then openPort k p s else s
  | _ => s

/-- An event-ring register of function `fn` (Table 15.8). -/
def evtReg (fn reg off : Nat) (v : Word) (s : State) : State :=
  let g := (s.crew fn).evt
  let q := fun (h : EvRing) => qWrite fn off (!g.enabled) (h == g) (updEvt fn (fun _ => h)) s
  if !s.evtOk fn then s
  else match reg with
  | 0x00 => q { g with base := setLo g.base v }
  | 0x04 => q { g with base := setHi g.base v }
  | 0x08 => q { g with sizeLog2 := fld v 0 4, vector := fld v 8 5 }
  | 0x0C => evtHead fn v s
  | 0x18 => if v.getLsbD 1 then evtDisableOp fn s else if v.getLsbD 0 then evtEnableOp fn s else s
  | _ => s

/-- `EVT_MOD[v]` (R492). -/
def evtMod (fn i : Nat) (v : Word) (s : State) : State :=
  if !s.evtOk fn then s
  else s.updCrew fn (·.updVec i (fun x => { x with holdoff := fld v 0 10, count := fld v 16 8 }))

/-- A word of the MSI-X table of function `fn` (R500): the two low address bits are 0. -/
def msixReg (fn off : Nat) (v : Word) (s : State) : State :=
  let i := off / 16
  let upd := fun (f : Vec → Vec) => s.updCrew fn (·.updVec i f)
  if !s.fnExists fn || decide (512 ≤ off) then s
  else match off % 16 with
  | 0x0 => upd (fun x => { x with addr := setLo x.addr (v &&& 0xFFFFFFFC) })
  | 0x4 => upd (fun x => { x with addr := setHi x.addr v })
  | 0x8 => upd (fun x => { x with data := v })
  | _ => if v.getLsbD 0 then upd (fun x => { x with masked := true }) else unmaskVector fn i s

/-- The policies of a context's buffer (Table 11.9): class F. -/
def epmPolicy (c : Nat) (v : Word) (s : State) : State :=
  s.updCtx c (fun x => { x with epm := { x.epm with
    withhold := { x.epm.withhold with written := v.getLsbD 0 },
    stageWait := { x.epm.stageWait with written := v.getLsbD 1 },
    repeats := { x.epm.repeats with written := v.getLsbD 2 } } })

/-- One direction's staging words and W1C bits of a mailbox (Tables 8.12, 8.13). -/
def Mbox.stage (m : Mbox) (w : Nat) (v : Word) : Mbox := { m with staging := Tab.put 0 w v m.staging }
/-- The W1C bits of a mailbox. -/
def Mbox.w1c (m : Mbox) (v : Word) : Mbox :=
  { m with busyDrop := m.busyDrop && !v.getLsbD 2, seqErr := m.seqErr && !v.getLsbD 3 }

/-! The blocks of BAR0. -/

/-- IMG (Table 3.12). -/
def imgReg (reg : Nat) (v : Word) (s : State) : State :=
  let g := s.img
  let q := fun (h : Img) => qWrite 0 (0x10000 + reg) (!g.busy) (h == g) (fun s => { s with img := h }) s
  if !s.responds .img then s
  else if 0x40 ≤ reg ∧ reg < 0x60 then q { g with keyStage := Tab.put 0 ((reg - 0x40) / 4) v g.keyStage }
  else match reg with
  | 0x30 => q { g with pushBase := setLo g.pushBase (v &&& 0xFFFFFFF0) }
  | 0x34 => q { g with pushBase := setHi g.pushBase v }
  | 0x38 => q { g with pushLen := fld v 0 21 }
  | 0x3C => if 1 ≤ fld v 0 3 ∧ fld v 0 3 ≤ 5 then imgStart (fld v 0 3) (v.getLsbD 8) s else s
  | _ => s

/-- CLK/PWR (Table 4.9). -/
def pwrReg (reg : Nat) (v : Word) (s : State) : State :=
  if !s.responds .clkPwr then s
  else match reg with
  | 0x14 => { s with pwr := { s.pwr with fault := s.pwr.fault &&& ~~~(v.truncate 24) } }
  | 0x18 => domainReq v s
  | 0x20 => { s with pwr := { s.pwr with cause := s.pwr.cause &&& ~~~(v.truncate 8) } }
  | 0x24 => softWarm v s
  | _ => s

/-- CAL (Table 4.10). -/
def calReg (reg : Nat) (v : Word) (s : State) : State :=
  if !s.responds .cal then s
  else if 0x40 ≤ reg ∧ reg < 0x60 then
    let f : Vmon → Vmon := fun x => { x with low := fld v 0 16, high := fld v 16 16 }
    { s with cal := { s.cal with vmon := s.cal.vmon.modify ((reg - 0x40) / 4) f } }
  else if 0x100 ≤ reg ∧ reg < 0x250 then
    if reg % 16 = 4 then calWrite ((reg - 0x100) / 16) v.toInt s else s
  else match reg with
  | 0x00 => if v.getLsbD 0 then calClear s else s
  | 0x04 => { s with cal := { s.cal with sat := s.cal.sat &&& ~~~(v.truncate 21) } }
  | 0x14 => { s with cal := { s.cal with warnThr := signed 16 (fld v 0 16), alarmThr := signed 16 (fld v 16 16) } }
  | _ => s

/-- `TRK_CTRL.hold`: a 0 during a rate change takes effect when it ends (Table 5.14). -/
def trkHold (n : Nat) (on : Bool) (s : State) : State :=
  s.updTrk n (fun t =>
    if on then { t with hold := true, holdClear := false }
    else if t.state = .rateChange then { t with holdClear := t.hold } else { t with hold := false })
/-- `TRK_CTRL` (Tables 5.14, 5.16): start and stop in one write are ignored; the state before the write decides
each action. -/
def trkCtrl (n : Nat) (v : Word) (s : State) : State :=
  if v.getLsbD 0 && v.getLsbD 1 then s
  else
    let s := if v.getLsbD 4 then clrStat n s else s
    let s := if v.getLsbD 3 then rateChange n s else s
    let s := if v.getLsbD 0 then lineStart n s else if v.getLsbD 1 then lineStop n s else s
    trkHold n (v.getLsbD 2) s
/-- TRK (Table 5.16); `TRK_RATE` under R181 and R193, its invalid code 3 refused (DESIGN CHOICE, log 74). -/
def trkReg (n reg : Nat) (v : Word) (s : State) : State :=
  let t := s.trk n
  if !s.responds (.trk n) then s
  else match reg with
  | 0x04 => trkCtrl n v s
  | 0x0C =>
    let r := fld v 0 2
    let ok := r != 3 && t.quiesced && (t.state == .stopped || decide (t.rateEff ≤ r))
    qWrite 0 (trkOffset n 0xC) ok (r == t.rate) (·.updTrk n (fun t => { t with rate := r })) s
  | _ => s

/-- ROS (Table 6.14). -/
def rosReg (reg : Nat) (v : Word) (s : State) : State :=
  let n := fld v 4 3
  let hub := fld v 7 7
  let port := fld v 14 5
  let i := fld v 20 12
  if !s.responds .ros then s
  else match reg with
  | 0x00 => { s with ros := { s.ros with evLog2 := { s.ros.evLog2 with written := fld v 0 2 } } }
  | 0x10 => match fld v 0 4 with
    | 1 => rosSettle 1 i s
    | 2 => rosSettle 2 i s
    | 3 => rosRejectOp i s
    | 4 => rosDeleteOp i s
    | 5 => rosProgress (rosSuspendOp n hub port s)
    | 6 => rosProgress (rosResumeOp n hub port s)
    | 7 => rosProgress (rosResetOp n hub port s)
    | _ => s
  | 0x20 => { s with ros := { s.ros with idx := fld v 0 12 } }
  | 0x80 => { s with ros := { s.ros with heldIdx := fld v 0 4 } }
  | _ => s

/-- `COX_TRK_PLAN[n]` (R264): the two class-Q values together, the hold time of class F on its own. -/
def coxPlan (n : Nat) (v : Word) (s : State) : State :=
  let t := s.trk n
  let u := fld v 0 8
  let c := fld v 8 10
  let s := s.updTrk n (fun t => { t with urgentHold := { t.urgentHold with written := fld v 20 4 } })
  qWrite 0 (0xC0100 + 0x20 * n) (t.quiesced && s.planOk n u c) (u == t.urgentUs && c == t.capUs)
    (·.updTrk n (fun t => { t with urgentUs := u, capUs := c })) s
/-- COX (Table 7.11). -/
def coxReg (reg : Nat) (v : Word) (s : State) : State :=
  if !s.responds .cox then s
  else if 0x100 ≤ reg ∧ reg < 0x200 then
    if (reg - 0x100) % 0x20 = 0 then coxPlan ((reg - 0x100) / 0x20) v s else s
  else match reg with
  | 0x00 => { s with cox := { s.cox with mgrWeight := { s.cox.mgrWeight with written := fld v 0 8 } } }
  | 0x10 =>
    if 1 ≤ fld v 0 3 ∧ fld v 0 3 ≤ 3 then almBegin (fld v 0 3) (fld v 4 14) (fld v 18 4) (fld v 22 8) s else s
  | _ => s

/-- `CRW_CMD` (Table 8.5); an op outside the table completes BAD_ARG. -/
def crwCommand (op k : Nat) (s : State) : State :=
  match op with
  | 1 => createOp k s
  | 2 => crwResetOp 2 k true s
  | 3 => crwResetOp 3 k false s
  | 4 => grantOp k s
  | 5 => revokeOp k s
  | 6 => crwOp 6 (setQuota k) s
  | 7 => crwOp 7 (setShareOp k) s
  | 8 => crwOp 8 (grantBcast k) s
  | 9 => crwOp 9 (withdrawBcast k) s
  | _ => crwOp op (fun s => (cwBadArg, s)) s
/-- `CRW_SHARE[k]` (R275, R505): class F; a bulk_min above the section's is dropped. -/
def crwShare (k : Nat) (v : Word) (s : State) : State :=
  let bad := decide (((s.sec k).map (·.bulkMin)).getD 0 < fld v 0 11)
  let s := s.updCrew k (fun c => { c with share := { c.share with
    written := (if bad then c.share.written.1 else fld v 0 11, fld v 16 8) } })
  if bad then cfgReject 0 (0x100200 + 8 * k) s else s
/-- The manager's side of crew `k`'s mailboxes (Table 8.13). -/
def mbxReg (k reg : Nat) (v : Word) (s : State) : State :=
  if reg < 0x40 then s.updCrew k (fun c => { c with mboxDn := c.mboxDn.stage (reg / 4) v })
  else match reg with
  | 0x80 => dnDoorbell k (fld v 0 5) (fld v 8 8) s
  | 0x84 => upAck k (fld v 0 8) s
  | 0x88 => s.updCrew k (fun c => { c with mboxDn := c.mboxDn.w1c v })
  | _ => s
/-- CRW (Table 8.10). -/
def crwReg (reg : Nat) (v : Word) (s : State) : State :=
  let g := s.cmd
  let q := fun (h : CrwCmd) => qWrite 0 (0x100000 + reg) (!g.busy) (h == g) (fun s => { s with cmd := h }) s
  if !s.responds .crw then s
  else if 0x208 ≤ reg ∧ reg < 0x400 then if reg % 8 = 0 then crwShare ((reg - 0x200) / 8) v s else s
  else if 0x4100 ≤ reg ∧ reg < 0x8000 then mbxReg ((reg - 0x4000) / 0x100) (reg % 0x100) v s
  else match reg with
  | 0x00 => crwCommand (fld v 0 4) (fld v 4 6) s
  | 0x04 => q { g with trunk := fld v 0 3, resource := fld v 3 2, ep := fld v 5 3, addr := fld v 16 9 }
  | 0x08 => q { g with amount := fld v 0 17, weight := fld v 24 8 }
  | _ => s

/-- The ring and queue registers of crew `k`, at `w` in the layout of its window less 0x100 (R332). -/
def rngReg (acc : Acc) (k w : Nat) (v : Word) (s : State) : State :=
  if w < 0x100 then ringReg acc k (w / 0x20) (w % 0x20) v s
  else if w < 0x200 then cqReg acc k ((w - 0x100) / 0x20) (w % 0x20) v s
  else s

/-- DMA (Tables 10.9, 10.10). -/
def dmaReg (reg : Nat) (v : Word) (s : State) : State :=
  if 0x1000 ≤ reg ∧ reg < 0x1800 then chReg .bar0 0 ((reg - 0x1000) / 0x40) (reg % 0x40) v s
  else if reg = 0x200 then bindOp 0 (fld v 0 14) (fld v 16 5) (v.getLsbD 24) s
  else s

/-- EPM (Table 11.9). -/
def epmReg (reg : Nat) (v : Word) (s : State) : State :=
  let c := (s.crew 0).epmSel
  if !s.responds .epm then s
  else match reg with
  | 0x00 => s.updCrew 0 (fun c => { c with epmSel := fld v 0 14 })
  | 0x04 => if (s.ctx c).used then epmPolicy c v s else s
  | _ => s

/-- `ARB_REQ[i]` (Table 12.8): the level where it is writable, the burst, and the two W1C bits. -/
def arbReqReg (a i : Nat) (v : Word) (s : State) : State :=
  if !arbHas a i then s
  else updArbReq a i (fun r =>
    { r with
    level := if arbLevelRo a i then r.level else fld v 0 2, burst := fld v 8 8,
    starved := r.starved && !v.getLsbD 16, cut := r.cut && !v.getLsbD 17 }) s
/-- ARB (Table 12.8). -/
def arbReg (a reg : Nat) (v : Word) (s : State) : State :=
  if !s.responds .arb || decide (3 ≤ a) then s
  else if reg = 0 then s.updArb a (fun b => { b with starve := fld v 0 16, hold := fld v 16 8 })
  else if 0x100 ≤ reg ∧ reg < 0x200 then arbReqReg a ((reg - 0x100) / 4) v s
  else s

/-- `TIM_CFG` (Table 13.8): writing allow_backstep 0 cancels a pending backward step (Table 13.7); the selected source is
the first valid one of the new order (R412); a kp_log2 or ki_log2 outside Table 13.6 is dropped (R505). -/
def timCfg (v : Word) (s : State) : State :=
  let back := v.getLsbD 8
  let p := fld v 16 4
  let i := fld v 24 4
  let okP := decide (1 ≤ p) && decide (p ≤ 8)
  let okI := decide (2 ≤ i) && decide (i ≤ 12)
  let s := timeSources { s with tim := { s.tim with
    srcOrder := v.truncate 6, allowBack := back, kp := if okP then p else s.tim.kp, ki := if okI then i else s.tim.ki,
    step := if back then s.tim.step else s.tim.step.filter (fun d => decide (0 ≤ d)) } }
  if okP && okI then s else cfgReject 0 0x240000 s
/-- TIM (Table 13.8). -/
def timReg (reg : Nat) (v : Word) (s : State) : State :=
  if !s.responds .tim then s
  else match reg with
  | 0x00 => timCfg v s
  | 0x04 => { s with tim := { s.tim with vigilLimit := fld v 0 16 } }
  | 0x08 =>
    let s := { s with tim := { s.tim with pulseWidth := fld v 12 19 } }
    if v.getLsbD 0 then startPulse s else s
  | 0x30 => { s with tim := { s.tim with setLo := v } }
  | 0x34 => { s with tim := { s.tim with setHi := v } }
  | 0x38 => if v.getLsbD 0 then timeSet s else s
  | 0x3C => mgrSample v s
  | _ => s

/-- TDM (Table 14.9): the actions act on the state before the write. -/
def tdmReg (reg : Nat) (v : Word) (s : State) : State :=
  let e := fld v 0 8
  if !s.responds .tdm then s
  else match reg with
  | 0x00 =>
    let s := if v.getLsbD 3 then tdmClear s else s
    let s := if v.getLsbD 1 then handOver s else s
    let s := if v.getLsbD 2 then forceClaim s else s
    linkEnable (v.getLsbD 0) s
  | 0x08 =>
    if s.claimRuns then (if e = s.tdm.epoch then s else cfgReject 0 0x280008 s)
    else { s with tdm := { s.tdm with epoch := e, epochValid := true } }
  | 0x30 => { s with tdm := { s.tdm with ledgerSel := fld v 0 12 } }
  | _ => s

/-- A 4-byte write in manager BAR0 (Table 16.2); shadows, reserved offsets and read-only registers ignore it. -/
def bar0Write (off : Nat) (v : Word) (s : State) : State :=
  if off < 0x10000 then s
  else if off < 0x20000 then imgReg (off - 0x10000) v s
  else if off < 0x30000 then pwrReg (off - 0x20000) v s
  else if off < 0x40000 then calReg (off - 0x30000) v s
  else if off < 0x48000 then trkReg ((off - 0x40000) / 0x1000) (off % 0x1000) v s
  else if off < 0x80000 then s
  else if off < 0xC0000 then rosReg (off - 0x80000) v s
  else if off < 0x100000 then coxReg (off - 0xC0000) v s
  else if off < 0x140000 then crwReg (off - 0x100000) v s
  else if off < 0x150000 then rngReg .bar0 ((off - 0x140000) / 0x400) (off % 0x400) v s
  else if off < 0x180000 then s
  else if off < 0x1C0000 then dmaReg (off - 0x180000) v s
  else if 0x1C0100 ≤ off ∧ off < 0x1C0200 then rxpReg 0 ((off - 0x1C0100) / 0x40) (off % 0x40) off v s
  else if off < 0x1E0000 then s
  else if off < 0x200000 then epmReg (off - 0x1E0000) v s
  else if off < 0x240000 then arbReg ((off - 0x200000) / 0x1000) (off % 0x1000) v s
  else if off < 0x280000 then timReg (off - 0x240000) v s
  else if off < 0x2C0000 then tdmReg (off - 0x280000) v s
  else if 0x2C0100 ≤ off ∧ off < 0x2C0180 then evtMod 0 ((off - 0x2C0100) / 4) v s
  else if off < 0x2C0100 then evtReg 0 (off - 0x2C0000) off v s
  else s

/-- A crew's own EPM registers, at its window (R392): only for a context it owns. -/
def epmWindow (k reg : Nat) (v : Word) (s : State) : State :=
  let c := (s.crew k).epmSel
  if !s.regOk .window k .epm then s
  else match reg with
  | 0x00 => s.updCrew k (fun c => { c with epmSel := fld v 0 14 })
  | 0x04 => if (s.ctx c).used && (s.ctx c).owner == k then epmPolicy c v s else s
  | _ => s
/-- A crew's mailbox registers, at 0x800 of its window (Table 8.12). -/
def mbxWindow (k reg : Nat) (v : Word) (s : State) : State :=
  if reg = 0x84 then dnAck k (fld v 0 8) s
  else if !s.regOk .window k .crw then s
  else if reg < 0x40 then s.updCrew k (fun c => { c with mboxUp := c.mboxUp.stage (reg / 4) v })
  else match reg with
  | 0x80 => upDoorbell k (fld v 0 5) (fld v 8 8) s
  | 0x88 => s.updCrew k (fun c => { c with mboxUp := c.mboxUp.w1c v })
  | _ => s
/-- A 4-byte write in the window of crew `k` (Table 16.3). -/
def windowWrite (k off : Nat) (v : Word) (s : State) : State :=
  if 0x100 ≤ off ∧ off < 0x300 then rngReg .window k (off - 0x100) v s
  else if 0x300 ≤ off ∧ off < 0x380 then evtReg k (off - 0x300) off v s
  else if 0x380 ≤ off ∧ off < 0x400 then evtMod k ((off - 0x380) / 4) v s
  else if 0x800 ≤ off ∧ off < 0x900 then mbxWindow k (off - 0x800) v s
  else if off = 0xC00 then bindOp k (fld v 0 14) (fld v 16 5) (v.getLsbD 24) s
  else if 0xD00 ≤ off ∧ off < 0xE00 then epmWindow k (off - 0xD00) v s
  else if 0xE00 ≤ off ∧ off < 0xF00 then rxpReg k ((off - 0xE00) / 0x40) (off % 0x40) off v s
  else if 0x1000 ≤ off ∧ off < 0x1800 then chReg .window k ((off - 0x1000) / 0x40) (off % 0x40) v s
  else if 0xE000 ≤ off ∧ off < 0xE200 then msixReg k (off - 0xE000) v s
  else s

/-- One 4-byte access of a write (R500). -/
def wordWrite (fn bar off : Nat) (v : Word) (s : State) : State :=
  if fn = 0 then (if bar = 0 then bar0Write off v s else if bar = 2 then msixReg 0 off v s else s)
  else if bar = 0 then windowWrite fn off v s else s

/-- A longer request is carried out as 4-byte accesses at ascending offsets; one with a byte disabled is ignored
(R501, R502). -/
def wordWrites (fn bar : Nat) : Nat → List WriteWord → State → State
  | _, [], s => s
  | off, w :: rest, s =>
    wordWrites fn bar (off + 4) rest (if w.enables = 0xF#4 then wordWrite fn bar off w.value s else s)

/-- A register write: poisoned data are discarded and logged (R512); a misaligned one is ignored (R502). -/
def regWrite (fn bar off : Nat) (words : List WriteWord) (s : State) : State :=
  if words.any (·.poisoned) then logAer (some fn) (BitVec.ofNat 64 off) .poisoned s
  else if off % 4 ≠ 0 then s
  else wordWrites fn bar off words s

/-- `REGISTER_WRITE` (R505). -/
def execRegisterWrite (fn : Fin 64) (bar : Fin 3) (offset : Nat) (words : List WriteWord) (s : State) :
    Host.Outcome State Fault Refusal :=
  finish (regWrite fn bar offset words s)

end Sys2Proof.Machine
end

