-- ==== Sys2Proof/Machine/Dispatch.lean ====
section
/-! DEFINITION. The meaning of every command: one arm per constructor of Instr. -/

namespace Sys2Proof.Machine

/-- The effect of a command on everything but the queue. -/
def exec (i : Instr) (s : State) : Host.Outcome State Fault Refusal :=
  match i with
  | .powerOnReset src => Sys2Proof.Machine.execPowerOnReset src s
  | .porDelayDone straps => Sys2Proof.Machine.execPorDelayDone straps s
  | .pllLock => Sys2Proof.Machine.execPllLock s
  | .clockFailReset cause => Sys2Proof.Machine.execClockFailReset cause s
  | .refclkReturn => Sys2Proof.Machine.execRefclkReturn s
  | .perstNAssert => Sys2Proof.Machine.execPerstNAssert s
  | .perstNDeassert straps => Sys2Proof.Machine.execPerstNDeassert straps s
  | .hotReset => Sys2Proof.Machine.execHotReset s
  | .dlDown => Sys2Proof.Machine.execDlDown s
  | .pwrResetCtrl value => Sys2Proof.Machine.execPwrResetCtrl value s
  | .releasePoint straps => Sys2Proof.Machine.execReleasePoint straps s
  | .managerReset => Sys2Proof.Machine.execManagerReset s
  | .vfFlr crew => Sys2Proof.Machine.execVfFlr crew s
  | .vfEnableClear => Sys2Proof.Machine.execVfEnableClear s
  | .busMasterEnableWrite fn on => Sys2Proof.Machine.execBusMasterEnableWrite fn on s
  | .configRequest fn req => Sys2Proof.Machine.execConfigRequest fn req s
  | .domainPowerGood d => Sys2Proof.Machine.execDomainPowerGood d s
  | .domainPowerTimeout d => Sys2Proof.Machine.execDomainPowerTimeout d s
  | .sramSweepDone tUs => Sys2Proof.Machine.execSramSweepDone tUs s
  | .ltssmDetect tUs => Sys2Proof.Machine.execLtssmDetect tUs s
  | .s5Complete tUs => Sys2Proof.Machine.execS5Complete tUs s
  | .pwrDomainReq value => Sys2Proof.Machine.execPwrDomainReq value s
  | .calUserWrite k value => Sys2Proof.Machine.execCalUserWrite k value s
  | .clearUser => Sys2Proof.Machine.execClearUser s
  | .monitorSample rawTemp rawMv => Sys2Proof.Machine.execMonitorSample rawTemp rawMv s
  | .monitorConditionChange cond => Sys2Proof.Machine.execMonitorConditionChange cond s
  | .thermalTrip => Sys2Proof.Machine.execThermalTrip s
  | .vddio33Low => Sys2Proof.Machine.execVddio33Low s
  | .pushFull => Sys2Proof.Machine.execPushFull s
  | .pushDelta => Sys2Proof.Machine.execPushDelta s
  | .imgStore slotB => Sys2Proof.Machine.execImgStore slotB s
  | .commitRollback => Sys2Proof.Machine.execCommitRollback s
  | .programKeyHash => Sys2Proof.Machine.execProgramKeyHash s
  | .imageVerifyDone flash tUs => Sys2Proof.Machine.execImageVerifyDone flash tUs s
  | .flashStatusReady readBack => Sys2Proof.Machine.execFlashStatusReady readBack s
  | .frameBoundary => Sys2Proof.Machine.execFrameBoundary s
  | .urgentPartStart trunk => Sys2Proof.Machine.execUrgentPartStart trunk s
  | .occurrenceIssue ctx => Sys2Proof.Machine.execOccurrenceIssue ctx s
  | .controlBulkStart trunk => Sys2Proof.Machine.execControlBulkStart trunk s
  | .transactionIssue trunk => Sys2Proof.Machine.execTransactionIssue trunk s
  | .frameGuard => Sys2Proof.Machine.execFrameGuard s
  | .responseBudgetExpired trunk slot => Sys2Proof.Machine.execResponseBudgetExpired trunk slot s
  | .retryExhausted trunk => Sys2Proof.Machine.execRetryExhausted trunk s
  | .rxDataP trunk slot pkt => Sys2Proof.Machine.execRxDataP trunk slot pkt s
  | .hubEventSample trunk slot pkt => Sys2Proof.Machine.execHubEventSample trunk slot pkt s
  | .rxDataB trunk slot pkt final => Sys2Proof.Machine.execRxDataB trunk slot pkt final s
  | .rxAck trunk slot pkt => Sys2Proof.Machine.execRxAck trunk slot pkt s
  | .rxNak trunk slot pkt => Sys2Proof.Machine.execRxNak trunk slot pkt s
  | .rxStall trunk slot pkt => Sys2Proof.Machine.execRxStall trunk slot pkt s
  | .rxBurstAck trunk slot pkt => Sys2Proof.Machine.execRxBurstAck trunk slot pkt s
  | .rxHopRsp trunk slot pkt rttLclk => Sys2Proof.Machine.execRxHopRsp trunk slot pkt rttLclk s
  | .rxClaim trunk slot pkt => Sys2Proof.Machine.execRxClaim trunk slot pkt s
  | .rxWake trunk sets => Sys2Proof.Machine.execRxWake trunk sets s
  | .resumeSignalEnd trunk => Sys2Proof.Machine.execResumeSignalEnd trunk s
  | .trkStart trunk => Sys2Proof.Machine.execTrkStart trunk s
  | .linePowerCheck trunk lfaultHigh => Sys2Proof.Machine.execLinePowerCheck trunk lfaultHigh s
  | .trkStop trunk => Sys2Proof.Machine.execTrkStop trunk s
  | .trkRateChg trunk => Sys2Proof.Machine.execTrkRateChg trunk s
  | .trkClrStat trunk => Sys2Proof.Machine.execTrkClrStat trunk s
  | .rateIdleResume trunk => Sys2Proof.Machine.execRateIdleResume trunk s
  | .rateConfirmTimeout trunk => Sys2Proof.Machine.execRateConfirmTimeout trunk s
  | .lineLockLost trunk => Sys2Proof.Machine.execLineLockLost trunk s
  | .lineLock trunk inverted => Sys2Proof.Machine.execLineLock trunk inverted s
  | .lineFault trunk => Sys2Proof.Machine.execLineFault trunk s
  | .lfaultRecovered trunk => Sys2Proof.Machine.execLfaultRecovered trunk s
  | .attachStart trunk => Sys2Proof.Machine.execAttachStart trunk s
  | .attachStepDone trunk => Sys2Proof.Machine.execAttachStepDone trunk s
  | .nodeAttachFailed trunk => Sys2Proof.Machine.execNodeAttachFailed trunk s
  | .headAnchorAttach trunk => Sys2Proof.Machine.execHeadAnchorAttach trunk s
  | .rosAdopt slot => Sys2Proof.Machine.execRosAdopt slot s
  | .rosAcceptNew slot => Sys2Proof.Machine.execRosAcceptNew slot s
  | .rosReject slot => Sys2Proof.Machine.execRosReject slot s
  | .rosDelete entry => Sys2Proof.Machine.execRosDelete entry s
  | .rosSuspend trunk hub port => Sys2Proof.Machine.execRosSuspend trunk hub port s
  | .rosResume trunk hub port => Sys2Proof.Machine.execRosResume trunk hub port s
  | .rosResetPort trunk hub port => Sys2Proof.Machine.execRosResetPort trunk hub port s
  | .almAdd ctx ilog2 phase => Sys2Proof.Machine.execAlmAdd ctx ilog2 phase s
  | .almRemove ctx => Sys2Proof.Machine.execAlmRemove ctx s
  | .almRead ctx => Sys2Proof.Machine.execAlmRead ctx s
  | .almOpComplete => Sys2Proof.Machine.execAlmOpComplete s
  | .crwCreate crew => Sys2Proof.Machine.execCrwCreate crew s
  | .crwTearDown crew => Sys2Proof.Machine.execCrwTearDown crew s
  | .crwReset crew => Sys2Proof.Machine.execCrwReset crew s
  | .grantEndpoint crew => Sys2Proof.Machine.execGrantEndpoint crew s
  | .revokeEndpoint crew => Sys2Proof.Machine.execRevokeEndpoint crew s
  | .setExtraQuota crew => Sys2Proof.Machine.execSetExtraQuota crew s
  | .setShare crew => Sys2Proof.Machine.execSetShare crew s
  | .grantUrgentBroadcast crew => Sys2Proof.Machine.execGrantUrgentBroadcast crew s
  | .withdrawUrgentBroadcast crew => Sys2Proof.Machine.execWithdrawUrgentBroadcast crew s
  | .crewCmdComplete => Sys2Proof.Machine.execCrewCmdComplete s
  | .crewCmdTimeout => Sys2Proof.Machine.execCrewCmdTimeout s
  | .mbxUpDb crew len seq => Sys2Proof.Machine.execMbxUpDb crew len seq s
  | .mbxDnDb crew len seq => Sys2Proof.Machine.execMbxDnDb crew len seq s
  | .mbxUpAck crew seq => Sys2Proof.Machine.execMbxUpAck crew seq s
  | .mbxDnAck crew seq => Sys2Proof.Machine.execMbxDnAck crew seq s
  | .rngEnable acc crew ring => Sys2Proof.Machine.execRngEnable acc crew ring s
  | .rngShutdown acc crew ring => Sys2Proof.Machine.execRngShutdown acc crew ring s
  | .rngRestart acc crew ring => Sys2Proof.Machine.execRngRestart acc crew ring s
  | .cqEnable acc crew cq => Sys2Proof.Machine.execCqEnable acc crew cq s
  | .cqDisable acc crew cq => Sys2Proof.Machine.execCqDisable acc crew cq s
  | .rngPiWrite acc crew ring value => Sys2Proof.Machine.execRngPiWrite acc crew ring value s
  | .cqHeadWrite acc crew cq value => Sys2Proof.Machine.execCqHeadWrite acc crew cq value s
  | .fetchTurn => Sys2Proof.Machine.execFetchTurn s
  | .chainLimit xfer => Sys2Proof.Machine.execChainLimit xfer s
  | .readCompletion tag res => Sys2Proof.Machine.execReadCompletion tag res s
  | .completionTimeout tag => Sys2Proof.Machine.execCompletionTimeout tag s
  | .nakTimeout xfer => Sys2Proof.Machine.execNakTimeout xfer s
  | .completionRecordWrite crew ring => Sys2Proof.Machine.execCompletionRecordWrite crew ring s
  | .workRingChannelTake ch => Sys2Proof.Machine.execWorkRingChannelTake ch s
  | .arbDecision arb bank reqs fin => Sys2Proof.Machine.execArbDecision arb bank reqs fin s
  | .arbHolderCut arb bank => Sys2Proof.Machine.execArbHolderCut arb bank s
  | .arbStarved arb req => Sys2Proof.Machine.execArbStarved arb req s
  | .arbCutClear arb req => Sys2Proof.Machine.execArbCutClear arb req s
  | .arbGrantsRead arb req => Sys2Proof.Machine.execArbGrantsRead arb req s
  | .dmaTagsRead => Sys2Proof.Machine.execDmaTagsRead s
  | .dchEnable acc crew ch => Sys2Proof.Machine.execDchEnable acc crew ch s
  | .dchStop acc crew ch => Sys2Proof.Machine.execDchStop acc crew ch s
  | .dchRestart acc crew ch => Sys2Proof.Machine.execDchRestart acc crew ch s
  | .dchPiWrite acc crew ch value => Sys2Proof.Machine.execDchPiWrite acc crew ch value s
  | .dchCqHeadWrite acc crew ch value => Sys2Proof.Machine.execDchCqHeadWrite acc crew ch value s
  | .dmaBind crew ctx ch => Sys2Proof.Machine.execDmaBind crew ctx ch s
  | .dmaUnbind crew ctx ch => Sys2Proof.Machine.execDmaUnbind crew ctx ch s
  | .dmaCapture acc => Sys2Proof.Machine.execDmaCapture acc s
  | .dmaRead acc => Sys2Proof.Machine.execDmaRead acc s
  | .dmaStage ch => Sys2Proof.Machine.execDmaStage ch s
  | .streamRecordWrite ch => Sys2Proof.Machine.execStreamRecordWrite ch s
  | .rxpOpen crew port => Sys2Proof.Machine.execRxpOpen crew port s
  | .rxpClose crew port => Sys2Proof.Machine.execRxpClose crew port s
  | .rxpFlush crew port => Sys2Proof.Machine.execRxpFlush crew port s
  | .rxpPop crew port => Sys2Proof.Machine.execRxpPop crew port s
  | .popTimeout crew port => Sys2Proof.Machine.execPopTimeout crew port s
  | .rxpThresholdWrite crew port value => Sys2Proof.Machine.execRxpThresholdWrite crew port value s
  | .cellQueueReset queue ecc => Sys2Proof.Machine.execCellQueueReset queue ecc s
  | .timeSecond => Sys2Proof.Machine.execTimeSecond s
  | .refppsEdge stamp => Sys2Proof.Machine.execRefppsEdge stamp s
  | .refValidityTimeout src => Sys2Proof.Machine.execRefValidityTimeout src s
  | .vigilLimitExpired => Sys2Proof.Machine.execVigilLimitExpired s
  | .timeSet => Sys2Proof.Machine.execTimeSet s
  | .mgrSampleWrite value => Sys2Proof.Machine.execMgrSampleWrite value s
  | .timNowRead => Sys2Proof.Machine.execTimNowRead s
  | .pulseStart => Sys2Proof.Machine.execPulseStart s
  | .tpulseRise => Sys2Proof.Machine.execTpulseRise s
  | .tpulseFall => Sys2Proof.Machine.execTpulseFall s
  | .tdmLinkEnable on => Sys2Proof.Machine.execTdmLinkEnable on s
  | .handover => Sys2Proof.Machine.execHandover s
  | .forceClaim => Sys2Proof.Machine.execForceClaim s
  | .tdmClrStat => Sys2Proof.Machine.execTdmClrStat s
  | .laneLock lane => Sys2Proof.Machine.execLaneLock lane s
  | .laneLockLost lane => Sys2Proof.Machine.execLaneLockLost lane s
  | .heartbeatSend => Sys2Proof.Machine.execHeartbeatSend s
  | .hbInEdge offUs => Sys2Proof.Machine.execHbInEdge offUs s
  | .rxHeartbeatBlock rx beat offUs => Sys2Proof.Machine.execRxHeartbeatBlock rx beat offUs s
  | .heartbeatMiss => Sys2Proof.Machine.execHeartbeatMiss s
  | .tdmPartnerLost => Sys2Proof.Machine.execTdmPartnerLost s
  | .rxPairBlock blk => Sys2Proof.Machine.execRxPairBlock blk s
  | .rxCatchEntry blk => Sys2Proof.Machine.execRxCatchEntry blk s
  | .rxCatchClose blk => Sys2Proof.Machine.execRxCatchClose blk s
  | .rxCatchAck blk => Sys2Proof.Machine.execRxCatchAck blk s
  | .rxCatchNak blk => Sys2Proof.Machine.execRxCatchNak blk s
  | .rxRelayRequest blk => Sys2Proof.Machine.execRxRelayRequest blk s
  | .rxRelayResult blk => Sys2Proof.Machine.execRxRelayResult blk s
  | .splitHealCheck trunk linkUp => Sys2Proof.Machine.execSplitHealCheck trunk linkUp s
  | .rxHealNotice blk => Sys2Proof.Machine.execRxHealNotice blk s
  | .rxTimeBlock rx msg state source => Sys2Proof.Machine.execRxTimeBlock rx msg state source s
  | .fenceInChange low => Sys2Proof.Machine.execFenceInChange low s
  | .claimFailed trunk => Sys2Proof.Machine.execClaimFailed trunk s
  | .lineProbe trunk target seen => Sys2Proof.Machine.execLineProbe trunk target seen s
  | .readmission trunk target => Sys2Proof.Machine.execReadmission trunk target s
  | .urgentExpired xfer => Sys2Proof.Machine.execUrgentExpired xfer s
  | .evtEnable fn => Sys2Proof.Machine.execEvtEnable fn s
  | .evtDisable fn => Sys2Proof.Machine.execEvtDisable fn s
  | .evtHeadWrite fn value => Sys2Proof.Machine.execEvtHeadWrite fn value s
  | .eventRecordWrite fn => Sys2Proof.Machine.execEventRecordWrite fn s
  | .msixHoldoffExpiry fn vec => Sys2Proof.Machine.execMsixHoldoffExpiry fn vec s
  | .msixVectorUnmask fn vec => Sys2Proof.Machine.execMsixVectorUnmask fn vec s
  | .registerWrite fn bar offset words => Sys2Proof.Machine.execRegisterWrite fn bar offset words s
  | .parkedPortSof trunk hop epoch => Sys2Proof.Machine.execParkedPortSof trunk hop epoch s
  | .parkedPortLrate trunk rate => Sys2Proof.Machine.execParkedPortLrate trunk rate s
  | .parkedPortRateTryExpiry trunk => Sys2Proof.Machine.execParkedPortRateTryExpiry trunk s
  | .fuseBlowDone => Sys2Proof.Machine.execFuseBlowDone s
  | .vddio33Restored straps => Sys2Proof.Machine.execVddio33Restored straps s
  | .pcieRefOkChange ok => Sys2Proof.Machine.execPcieRefOkChange ok s

end Sys2Proof.Machine
end

