-- ==== Sys2Proof/Machine/Tick.lean ====
section
/-! DEFINITION. What passes on an empty queue: one cycle of TCLK (R408, log 7). -/

namespace Sys2Proof.Machine

/-- Device time advances by 10 ns times 1 plus the rate, in steps of 2^-32 ns; which way the last step is
rounded is open (log 1).  Elapsed time for `TPULSE` advances by 10 ns.  The rate is in ppb. -/
def Tim.advance (t : Tim) (up : Bool) : Tim :=
  let exact : Rat := (10 * 2 ^ 32 : Nat) * (1 + t.rate / 1000000000)
  let inc : Nat := (if up then exact.ceil else exact.floor).toNat
  let total := t.ns * 2 ^ 32 + t.sub + inc
  { t with ns := total / 2 ^ 32, sub := total % 2 ^ 32, elapsed := t.elapsed + 10 }

/-- One TCLK cycle while device time runs; nothing while it stands. -/
def tick (s : State) : Host.Outcome State Fault Refusal :=
  if s.tim.running then
    .next { s with tim := s.tim.advance (Config.roundUp s.freeCtr), freeCtr := s.freeCtr + 1 }
  else .next s

end Sys2Proof.Machine
end

