-- ==== Sys2Proof/Machine/Coding.lean ====
section
/-! DEFINITION. The characters of the line (R144, R148, R150): packets between SOP and EOP, the ordered sets of Table
5.2, and the 8b/10b code groups that carry them.  The code's own tables are those of IEEE 802.3 Clause 36, which the
manual names and does not print (PRESUMED, log 67). -/

namespace Sys2Proof.Machine

/-! Characters (Table 5.2). -/

/-- Control characters of the 8b/10b code. -/
inductive Ctrl where
  | k28_0 | k28_1 | k28_2 | k28_3 | k28_4 | k28_5 | k28_6 | k28_7 | k23_7 | k27_7 | k29_7 | k30_7
  deriving DecidableEq, Repr

/-- A character of the line: a byte or a control character (R144). -/
inductive LineChar where
  | data (b : Byte)
  | ctrl (k : Ctrl)
  deriving DecidableEq, Repr

/-- D21.5, the second character of IDLE, WAKE and RESUME. -/
def d21_5 : LineChar := .data 0xB5
/-- SOP. -/
def sop : LineChar := .ctrl .k27_7
/-- EOP. -/
def eop : LineChar := .ctrl .k29_7
/-- EOPA: the receiver discards the packet. -/
def eopa : LineChar := .ctrl .k30_7
/-- The set WAKE, which comes upstream. -/
def wakeSet : List LineChar := [.ctrl .k28_3, d21_5]
/-- The characters a line signal repeats; electrical idle has none. -/
def sigSet : LineSig → List LineChar
  | .idle => [.ctrl .k28_5, d21_5]
  | .resume => [.ctrl .k28_6, d21_5]
  | .electricalIdle => []

/-- A packet on the line (R150): SOP, the header, its CRC-8, then with a payload the payload and its CRC-32, then EOP. -/
def pktLine (p : LinePkt) : List LineChar :=
  sop :: (p.hdr ++ [p.crc8] ++ p.payload ++ p.crc32).map .data ++ [eop]

/-- A block of the tandem link (R437): K27.7, the header with its channel in bits [3:0] and its number in bits [15:4], 32
data bytes, the CRC-32 over header and data, K29.7. -/
def blkLine (channel num : Nat) (data : List Byte) : List LineChar :=
  let hd := leBytes 2 (channel % 16 + num % 4096 * 16) ++ data
  sop :: (hd ++ leBytes 4 (crc32 hd).toNat).map .data ++ [eop]

/-! Code groups (R144).  A group is 10 bits; bit 9 is bit a, which goes first. -/

/-- The 6-bit part of a byte's low five bits at negative disparity. -/
def six (x : BitVec 5) : BitVec 6 :=
  match x.toNat with
  | 0 => 0b100111 | 1 => 0b011101 | 2 => 0b101101 | 3 => 0b110001
  | 4 => 0b110101 | 5 => 0b101001 | 6 => 0b011001 | 7 => 0b111000
  | 8 => 0b111001 | 9 => 0b100101 | 10 => 0b010101 | 11 => 0b110100
  | 12 => 0b001101 | 13 => 0b101100 | 14 => 0b011100 | 15 => 0b010111
  | 16 => 0b011011 | 17 => 0b100011 | 18 => 0b010011 | 19 => 0b110010
  | 20 => 0b001011 | 21 => 0b101010 | 22 => 0b011010 | 23 => 0b111010
  | 24 => 0b110011 | 25 => 0b100110 | 26 => 0b010110 | 27 => 0b110110
  | 28 => 0b001110 | 29 => 0b101110 | 30 => 0b011110 | _ => 0b101011
/-- The 4-bit part of a byte's high three bits at negative disparity; `alt` is the alternate form of D.x.7. -/
def four (y : BitVec 3) (alt : Bool) : BitVec 4 :=
  match y.toNat with
  | 0 => 0b1011 | 1 => 0b1001 | 2 => 0b0101 | 3 => 0b1100
  | 4 => 0b1101 | 5 => 0b1010 | 6 => 0b0110 | _ => if alt then 0b0111 else 0b1110

/-- Ones among the low `n` bits. -/
def ones : Nat → Nat → Nat
  | 0, _ => 0
  | n + 1, v => v % 2 + ones n (v / 2)
/-- A part goes out complemented at positive disparity where its two forms differ. -/
def form {w : Nat} (rd differ : Bool) (v : BitVec w) : BitVec w := if rd && differ then ~~~v else v
/-- The disparity after a part: an unbalanced part turns it. -/
def turn {w : Nat} (rd : Bool) (v : BitVec w) : Bool := rd != decide (2 * ones w v.toNat ≠ w)

/-- The group of a byte at running disparity `rd` (true: positive), and the disparity after it. -/
def byteGroup (rd : Bool) (b : Byte) : BitVec 10 × Bool :=
  let x := b.extractLsb' 0 5
  let y := b.extractLsb' 5 3
  let s := six x
  let s' := form rd (decide (2 * ones 6 s.toNat ≠ 6) || x == 7#5) s
  let mid := turn rd s'
  let alt := if mid then x == 11#5 || x == 13#5 || x == 14#5 else x == 17#5 || x == 18#5 || x == 20#5
  let f := four y alt
  let f' := form mid (decide (2 * ones 4 f.toNat ≠ 4) || y == 3#3) f
  (s' ++ f', turn mid f')

/-- The group of a control character at negative disparity. -/
def ctrlGroup : Ctrl → BitVec 10
  | .k28_0 => 0b0011110100 | .k28_1 => 0b0011111001 | .k28_2 => 0b0011110101 | .k28_3 => 0b0011110011
  | .k28_4 => 0b0011110010 | .k28_5 => 0b0011111010 | .k28_6 => 0b0011110110 | .k28_7 => 0b0011111000
  | .k23_7 => 0b1110101000 | .k27_7 => 0b1101101000 | .k29_7 => 0b1011101000 | .k30_7 => 0b0111101000

/-- The group of a character, and the disparity after it. -/
def group (rd : Bool) : LineChar → BitVec 10 × Bool
  | .data b => byteGroup rd b
  | .ctrl k => let g := form rd true (ctrlGroup k); (g, turn rd g)
/-- The groups of a run of characters. -/
def groups : Bool → List LineChar → List (BitVec 10)
  | _, [] => []
  | rd, c :: cs => (group rd c).1 :: groups (group rd c).2 cs
/-- The bits of a run of groups in the order of the line: bit a of each group first. -/
def lineBits (gs : List (BitVec 10)) : List Bool :=
  gs.flatMap (fun g => (List.range 10).map (fun i => g.getLsbD (9 - i)))

/-! Receiving. -/

/-- The control characters. -/
def ctrls : List Ctrl :=
  [.k28_0, .k28_1, .k28_2, .k28_3, .k28_4, .k28_5, .k28_6, .k28_7, .k23_7, .k27_7, .k29_7, .k30_7]
/-- The character of a group at a running disparity; none: a disparity error, or no group of the code. -/
def charOf (rd : Bool) (g : BitVec 10) : Option LineChar :=
  match ctrls.find? (fun k => (group rd (.ctrl k)).1 == g) with
  | some k => some (.ctrl k)
  | none => ((List.range 256).map (BitVec.ofNat 8)).find? (fun b => (byteGroup rd b).1 == g) |>.map .data
/-- What follows SOP, as characters, each with the disparity its predecessor left; none is a code violation (R148). -/
def readGroups : Bool → List (BitVec 10) → List (Option LineChar)
  | _, [] => []
  | rd, g :: gs => charOf rd g :: readGroups (turn rd g) gs

/-- The bytes up to the end of a packet, and whether it ended well: EOPA, any other control character and a code violation
spoil it (R148). -/
def upToEop : List (Option LineChar) → List Byte × Bool
  | some (.data b) :: r => let x := upToEop r; (b :: x.1, x.2)
  | some (.ctrl k) :: _ => ([], decide (.ctrl k = eop))
  | _ => ([], false)

/-- A packet as the line port takes it from the characters after SOP: a header of 4 bytes, the CRC-8, and, where more came,
the payload and the CRC-32 (R150); too few bytes for that are no packet. -/
def rxPacket (l : List (Option LineChar)) : RxPkt :=
  let x := upToEop l
  let n := x.1.length - 9
  { hdr := BitVec.ofNat 32 (leAt x.1 0 4), crc8 := BitVec.ofNat 8 (byteAt x.1 4), payload := (x.1.drop 5).take n,
    crc32 := BitVec.ofNat 32 (leAt x.1 (5 + n) 4), framing := !x.2 || !(x.1.length == 5 || decide (10 ≤ x.1.length)) }

end Sys2Proof.Machine
end

