-- ==== Sys2Proof/Machine/Jtag.lean ====
section
/-! DEFINITION. The JTAG port (R521, R519, Table 17.14).  The manual gives the identification code and says what the port
may do; the states of the port are those of IEEE 1149.1, which it names (PRESUMED, log 69).  No row of the table is a
TCK edge: `jtagClock` says what one does. -/

namespace Sys2Proof.Machine

/-- The identification code: the revision's version, part 0x4840, manufacturer field 0x5B7 and the closing 1. -/
def State.idcode (s : State) : Word :=
  let v : BitVec 4 := if s.shadow.siliconRev = 0xA0 then 0 else Config.jtagVersion s.shadow.siliconRev
  v ++ 0x4840#16 ++ 0x5B7#11 ++ 1#1

/-- The port may do more than boundary scan only with the debug fuse blown and PD23 on (R521). -/
def State.jtagDebug (s : State) : Bool := !s.shadow.debugIntact && s.isOn 23
/-- The port is usable while TEST_EN is low (Table 17.14). -/
def State.jtagUsable (s : State) : Bool := !s.pins.testEn

/-- The state after a rising edge of TCK. -/
def tapNext (tms : Bool) : TapState → TapState
  | .testLogicReset => if tms then .testLogicReset else .runTestIdle
  | .runTestIdle => if tms then .selectDr else .runTestIdle
  | .selectDr => if tms then .selectIr else .captureDr
  | .captureDr => if tms then .exit1Dr else .shiftDr
  | .shiftDr => if tms then .exit1Dr else .shiftDr
  | .exit1Dr => if tms then .updateDr else .pauseDr
  | .pauseDr => if tms then .exit2Dr else .pauseDr
  | .exit2Dr => if tms then .updateDr else .shiftDr
  | .updateDr => if tms then .selectDr else .runTestIdle
  | .selectIr => if tms then .testLogicReset else .captureIr
  | .captureIr => if tms then .exit1Ir else .shiftIr
  | .shiftIr => if tms then .exit1Ir else .shiftIr
  | .exit1Ir => if tms then .updateIr else .pauseIr
  | .pauseIr => if tms then .exit2Ir else .pauseIr
  | .exit2Ir => if tms then .updateIr else .shiftIr
  | .updateIr => if tms then .selectDr else .runTestIdle

/-- The bits a capture puts into a scan: the identification code, least significant bit first, or the bypass bit 0; those of
the boundary-scan register and of any other are the board's and open. -/
def State.captured (s : State) : List Bool :=
  if s.jtag.sel = 0 then (List.range 32).map s.idcode.getLsbD
  else if s.jtag.sel = 1 then [false]
  else []

/-- A rising edge of TCK, or TRST_N low.  Without debug the port selects nothing but the identification code, the bypass bit
and the boundary-scan register. -/
def jtagClock (trst tms tdi : Bool) (s : State) : State :=
  if trst || !s.jtagUsable then { s with jtag := {} }
  else
    let j := s.jtag
    let j :=
      match j.tap with
      | .captureDr => { j with bits := s.captured }
      | .captureIr => { j with bits := [] }
      | .shiftDr => { j with bits := j.bits.drop 1 ++ [tdi] }
      | .shiftIr => { j with bits := j.bits ++ [tdi] }
      | .updateIr =>
        let x := Config.jtagSelect j.bits
        { j with sel := if x = 3 ∧ !s.jtagDebug then 1 else x }
      | .testLogicReset => { j with sel := 0, bits := [] }
      | _ => j
    { s with jtag := { j with tap := tapNext tms j.tap } }

/-- TDO in a data scan. -/
def Jtag.tdo (j : Jtag) : Option Bool := if j.tap = .shiftDr then j.bits.head? else none

end Sys2Proof.Machine
end

