-- ==== Sys2Proof/Machine/ReadRegs.lean ====
section
/-! DEFINITION. Register reads (R499 to R507, R514, R515): what a read of each register of BAR0, of the manager's
BAR2 and of a crew window returns, and the reads of Table 16.4 that have a side effect.  A register of a block that
does not respond (R90, R113), a reserved offset or bit, and a write-only register read 0 (R504); a field whose table
says that a written value "reads as" another shows that other value (R404, Table 13.6; log 53). -/

namespace Sys2Proof.Machine

/-- A register word from its fields: lowest bit, width, value. -/
def packWord (fs : List (Nat × Nat × Nat)) : Word :=
  BitVec.ofNat 32 ((fs.map (fun f => f.2.2 % 2 ^ f.2.1 * 2 ^ f.1)).sum)
/-- A natural number as a word. -/
def natWord (v : Nat) : Word := BitVec.ofNat 32 v
/-- A signed number as a word. -/
def intWord (v : Int) : Word := BitVec.ofInt 32 v
/-- The low half of an address. -/
def loWord (a : Addr) : Word := BitVec.ofNat 32 a.toNat
/-- The high half of an address. -/
def hiWord (a : Addr) : Word := BitVec.ofNat 32 (a.toNat / 2 ^ 32)
/-- Word `w` of a byte string. -/
def byteWord (b : List Byte) (w : Nat) : Word := BitVec.ofNat 32 (leAt b (4 * w) 4)
/-- The numbers below `n` that pass a test, as a bit map. -/
def bitMap (n : Nat) (p : Nat → Bool) : Nat := ((List.range n).map (fun i => bit (p i) * 2 ^ i)).sum

/-! Codes of the states that registers show. -/

/-- `IMG_STATUS.state` (Table 3.12). -/
def ImgState.code : ImgState → Nat | .loading => 0 | .applied => 1 | .loader => 2
/-- `TRK_STATUS.state` (Table 5.16). -/
def TrkState.code : TrkState → Nat
  | .stopped => 0 | .starting => 1 | .running => 2 | .parked => 3 | .rateChange => 4 | .fault => 5
/-- Crew states (Table 8.3). -/
def CrewState.code : CrewState → Nat
  | .absent => 0 | .creating => 1 | .running => 2 | .resetting => 3 | .tearingDown => 4
/-- Ring states (Table 9.7). -/
def RingState.code : RingState → Nat | .disabled => 0 | .running => 1 | .halted => 2 | .stopping => 3
/-- Channel states (Table 10.10). -/
def ChState.code : ChState → Nat | .disabled => 0 | .running => 1 | .halted => 2 | .stopping => 3
/-- Receive-port states (Table 11.11). -/
def RxpState.code : RxpState → Nat | .closed => 0 | .open => 1 | .closing => 2 | .stalled => 3
/-- Buffer states (Table 11.1). -/
def BufState.code : BufState → Nat | .never => 0 | .full => 1 | .used => 2
/-- Split modes (Table 14.9). -/
def SplitMode.code : SplitMode → Nat | .whole => 0 | .split => 1 | .healing => 2
/-- `CRW_STATE[k].state`: entry 0 reads 2 once an image is applied (Table 8.10). -/
def State.crewCode (s : State) (k : Nat) : Nat :=
  if k = 0 then (if s.img.applied.isSome then 2 else 0) else (s.crew k).st.code

/-! GLB, IMG, CLK/PWR, CAL. -/

/-- GLB (Tables 2.7, 2.8). -/
def glbRead (reg : Nat) (s : State) : Word :=
  if !s.responds .glb then 0
  else match reg with
  | 0x0 => packWord [(0, 8, (s.img.applied.map (·.hdr.bp)).getD 0), (8, 8, s.shadow.siliconRev), (16, 8, s.shadow.bpHighest)]
  | 0x4 => packWord [(0, 1, bit s.isolationEffective), (1, 1, bit ((s.img.applied.map (fun im => !im.hdr.debug)).getD false)),
      (2, 1, bit s.shadow.debugIntact), (4, 6, s.bcastHolders)]
  | _ => 0

/-- IMG (Table 3.12). -/
def imgRead (reg : Nat) (s : State) : Word :=
  let g := s.img
  let h := fun (f : ImgHdr → Nat) => (g.applied.map (fun im => f im.hdr)).getD 0
  let has := fun (k : Nat) => k != 0 && (s.sec k).isSome
  if !s.responds .img then 0
  else if 0x40 ≤ reg ∧ reg < 0x60 then Tab.get 0 g.keyStage ((reg - 0x40) / 4)
  else match reg with
  | 0x00 => packWord [(0, 3, g.state.code), (3, 2, g.source), (16, 8, g.slotAReason), (24, 8, g.slotBReason)]
  | 0x04 => packWord [(0, 8, h (·.bp)), (8, 1, h (fun x => bit x.debug)), (16, 8, h (·.rollback))]
  | 0x08 => packWord [(0, 16, h (·.fmt))]
  | 0x0C => natWord (h (·.id))
  | 0x10 => natWord (h (fun x => x.id / 2 ^ 32))
  | 0x14 => packWord [(0, 6, (g.applied.map (·.crewMax)).getD 0)]
  | 0x18 => natWord (bitMap 32 has)
  | 0x1C => natWord (bitMap 32 (fun m => has (32 + m)))
  | 0x20 => packWord [(0, 6, s.shadow.rollback), (8, 1, bit s.shadow.keyHash.isSome)]
  | 0x24 => packWord [(0, 1, bit s.straps.slot), (1, 1, bit s.straps.boot)]
  | 0x30 => loWord g.pushBase
  | 0x34 => hiWord g.pushBase
  | 0x38 => packWord [(0, 21, g.pushLen)]
  | 0x60 => packWord [(0, 1, bit g.busy), (8, 8, g.reason), (16, 3, g.lastOp)]
  | _ => 0

/-- CLK/PWR (Table 4.9). -/
def pwrRead (reg : Nat) (s : State) : Word :=
  let p := s.pwr
  if !s.responds .clkPwr then 0
  else match reg with
  | 0x00 => packWord [(0, 1, bit p.pllLock), (1, 1, bit p.pcieRefOk)]
  | 0x10 => p.on.zeroExtend 32
  | 0x14 => p.fault.zeroExtend 32
  | 0x18 => p.req.zeroExtend 32
  | 0x20 => p.cause.zeroExtend 32
  | 0x30 => p.stageT0
  | 0x34 => p.stageT1
  | 0x38 => p.stageT2
  | 0x3C => p.stageT3
  | _ => 0

/-- An item of CAL (Table 4.10); the shadow of a class-F user value (Table 16.5). -/
def calItemRead (k col : Nat) (s : State) : Word :=
  match col with
  | 0x0 => intWord (Tab.get 0 s.shadow.factory k)
  | 0x4 => intWord (Tab.get 0 s.cal.user k)
  | 0x8 => intWord (s.calEff k)
  | _ => 0
/-- CAL (Table 4.10). -/
def calRead (reg : Nat) (s : State) : Word :=
  let c := s.cal
  let v := fun (f : Vmon → Word) (o : Nat) => (c.vmon[(reg - o) / 4]?.map f).getD 0
  if !s.responds .cal then 0
  else if 0x20 ≤ reg ∧ reg < 0x40 then v (fun x => packWord [(0, 16, (intWord x.mv).toNat), (16, 1, bit x.out)]) 0x20
  else if 0x40 ≤ reg ∧ reg < 0x60 then v (fun x => packWord [(0, 16, x.low), (16, 16, x.high)]) 0x40
  else if 0x100 ≤ reg ∧ reg < 0x250 then calItemRead ((reg - 0x100) / 16) (reg % 16) s
  else if 0x81A0 ≤ reg ∧ reg < 0x8250 then
    if reg % 16 = 4 then intWord (Tab.get 0 c.userForce ((reg - 0x8100) / 16)) else 0
  else match reg with
  | 0x04 => c.sat.zeroExtend 32
  | 0x10 => packWord [(0, 16, (intWord c.temp).toNat), (16, 1, bit c.warn), (17, 1, bit c.alarm)]
  | 0x14 => packWord [(0, 16, (intWord c.warnThr).toNat), (16, 16, (intWord c.alarmThr).toNat)]
  | _ => 0

/-! TRK, ROS, COX. -/

/-- The trunk entry of the applied image (Table 8.11). -/
def State.trkImg (s : State) (n : Nat) : TrkImg := (s.img.applied.map (·.trunk n)).getD ⟨0, 0, 0, 0, 0, 0, 0⟩
/-- The error register of hub `p` (Table 15.8). -/
def lecRead (n p : Nat) (s : State) : Word :=
  let h := (s.trk n).hub p
  packWord [(0, 8, h.lec), (8, 1, bit h.warn), (9, 1, bit h.pruned), (10, 4, h.clean), (16, 16, h.charged)]
/-- TRK (Tables 5.16, 8.11, 15.8). -/
def trkRead (n reg : Nat) (s : State) : Word :=
  let t := s.trk n
  let i := s.trkImg n
  if !s.responds (.trk n) then 0
  else if 0x100 ≤ reg ∧ reg < 0x200 then lecRead n ((reg - 0x100) / 4 + 1) s
  else match reg with
  | 0x00 => packWord [(0, 1, bit (s.exists? n)), (1, 1, bit (s.pairFed n)), (2, 2, i.rate)]
  | 0x04 => packWord [(2, 1, bit t.hold)]
  | 0x08 => packWord [(0, 3, t.state.code), (3, 1, bit t.quiesced), (4, 1, bit t.lock), (5, 1, bit t.polInv),
      (6, 1, bit t.lfault), (8, 6, t.slots.length)]
  | 0x0C => packWord [(0, 2, t.rate), (4, 2, t.rateEff)]
  | 0x10 => packWord [(0, 16, t.crcErr), (16, 16, t.framingErr)]
  | 0x14 => packWord [(0, 16, t.timeouts), (16, 16, t.resyncs)]
  | 0x20 => packWord [(0, 15, i.epCtx), (16, 13, i.tc)]
  | 0x24 => packWord [(0, 10, i.epmKib)]
  | 0x28 => packWord [(0, 15, i.mgrEpCtx), (16, 13, i.mgrTc)]
  | 0x2C => packWord [(0, 10, i.mgrEpmKib)]
  | 0x30 => packWord [(0, 13, (s.tcFree n 0).toNat)]
  | 0x40 => packWord [(0, 8, t.tec), (8, 1, bit t.tecWarn), (9, 1, bit t.quarantined), (10, 4, t.clean), (14, 1, bit t.walk.isSome)]
  | _ => 0

/-- The 48 bytes of a held slot (Table 6.11). -/
def Held.bytes (h : Held) : List Byte :=
  [h.trunk, h.hub, h.port, 0].map (fun v => BitVec.ofNat 8 v) ++ leBytes 2 h.entry ++ List.replicate 10 0
    ++ (h.identity ++ List.replicate 32 0).take 32
/-- Free addresses of trunk `n` (`ROS_TRK[n].free_addr`). -/
def State.freeAddrs (s : State) (n : Nat) : Nat := 511 - (s.ros.entries.filter (fun e => e.2.trunk == n)).length
/-- ROS (Table 6.14). -/
def rosRead (reg : Nat) (s : State) : Word :=
  let r := s.ros
  if !s.responds .ros then 0
  else if 0x40 ≤ reg ∧ reg < 0x80 then ((s.entry r.idx).map (fun e => byteWord e.bytes ((reg - 0x40) / 4))).getD 0
  else if 0xC0 ≤ reg ∧ reg < 0xF0 then
    ((Keyed.find r.held r.heldIdx).map (fun h => byteWord h.bytes ((reg - 0xC0) / 4))).getD 0
  else if 0x100 ≤ reg ∧ reg < 0x120 then
    let n := (reg - 0x100) / 4
    packWord [(0, 10, s.freeAddrs n), (16, 1, bit (s.trk n).attach.isSome), (17, 8, min 255 (s.trk n).attachQ.length)]
  else match reg with
  | 0x00 => packWord [(0, 2, r.evLog2.written)]
  | 0x04 => packWord [(0, 13, r.entries.length), (16, 5, r.held.length)]
  | 0x14 => packWord [(0, 1, bit r.busy), (8, 8, r.status), (16, 4, r.lastOp)]
  | 0x20 => packWord [(0, 12, r.idx)]
  | 0x80 => packWord [(0, 4, r.heldIdx)]
  | 0x8000 => packWord [(0, 2, r.evLog2.inForce)]
  | _ => 0

/-- `COX_CREW_STAT` of crew `k` on trunk `n` (Table 7.11), word `w`. -/
def statRead (k n w : Nat) (s : State) : Word :=
  let c := Tab.get {} (s.crew k).stat n
  if w = 0 then packWord [(0, 16, c.late), (16, 16, c.missed)] else packWord [(0, 16, c.failed), (16, 14, c.carry)]
/-- The registers of trunk `n` in COX (Table 7.11). -/
def coxTrkRead (n reg : Nat) (s : State) : Word :=
  let t := s.trk n
  match reg with
  | 0x00 => packWord [(0, 8, t.urgentUs), (8, 10, t.capUs), (20, 4, max 1 t.urgentHold.written)]
  | 0x04 => packWord [(0, 14, t.c0Last), (16, 6, t.slotsPeak)]
  | 0x08 => natWord t.slotWait
  | 0x0C => packWord [(0, 6, t.urgentPtr), (8, 6, t.sharePtr)]
  | 0x10 => packWord [(0, 14, s.mgrFree n)]
  | _ => 0
/-- COX (Table 7.11). -/
def coxRead (reg : Nat) (s : State) : Word :=
  if !s.responds .cox then 0
  else if 0x20 ≤ reg ∧ reg < 0x30 then s.cox.entry.getD ((reg - 0x20) / 4) 0
  else if 0x100 ≤ reg ∧ reg < 0x200 then coxTrkRead ((reg - 0x100) / 0x20) (reg % 0x20) s
  else if 0x1000 ≤ reg ∧ reg < 0x2000 then
    statRead ((reg - 0x1000) / 64) ((reg - 0x1000) / 8 % 8) (reg / 4 % 2) s
  else if 0x8100 ≤ reg ∧ reg < 0x8200 then
    if reg % 0x20 = 0 then packWord [(20, 4, max 1 (s.trk ((reg - 0x8100) / 0x20)).urgentHold.inForce)] else 0
  else match reg with
  | 0x00 => packWord [(0, 8, max 1 s.cox.mgrWeight.written)]
  | 0x14 => packWord [(0, 1, bit s.cox.busy), (4, 4, s.cox.reason), (8, 8, s.cox.phase)]
  | 0x8000 => packWord [(0, 8, max 1 s.cox.mgrWeight.inForce)]
  | _ => 0

/-! CRW. -/

/-- `CRW_SHARE[k]` or its shadow; entry 0 shows the manager's values (R275, R246). -/
def shareRead (k : Nat) (force : Bool) (s : State) : Word :=
  let f := (s.crew k).share
  let v := if force then f.inForce else f.written
  let w := if force then s.cox.mgrWeight.inForce else s.cox.mgrWeight.written
  if k = 0 then packWord [(0, 11, if s.img.applied.isSome then s.bulkMin 0 else 0), (16, 8, max 1 w)]
  else packWord [(0, 11, v.1), (16, 8, max 1 v.2)]
/-- The 128 bytes of a crew section (Table 3.6). -/
def CrewSec.bytes (c : CrewSec) : List Byte :=
  let eight := fun (l : List Nat) => (List.range 8).flatMap (fun n => leBytes 2 (l.getD n 0))
  eight c.tc ++ eight c.epCtx ++ eight c.epmKib ++ eight c.almUs ++ leBytes 4 c.cells ++ leBytes 2 c.queues
    ++ leBytes 1 c.rings ++ leBytes 1 c.ringLog2Max ++ leBytes 2 c.bulkMin ++ leBytes 1 c.bulkWeight
    ++ leBytes 1 c.epmBufLog2 ++ leBytes 1 (bit c.permUrgent + 2 * bit c.permBcast) ++ List.replicate 51 0
/-- A quota of a crew, 0 while it does not exist (R273). -/
def State.quotaShown (s : State) (k v : Nat) : Nat := if s.crewCode k = 0 then 0 else v
/-- Both sides' view of a mailbox pair: staging words, read buffer, status (Tables 8.12, 8.13). -/
def mboxRead (mine other : Mbox) (reg : Nat) : Word :=
  if reg < 0x40 then Tab.get 0 mine.staging (reg / 4)
  else if reg < 0x80 then Tab.get 0 other.buffer ((reg - 0x40) / 4)
  else if reg = 0x88 then packWord [(0, 1, bit mine.pending), (1, 1, bit other.pending), (2, 1, bit mine.busyDrop),
    (3, 1, bit mine.seqErr), (8, 8, mine.seq), (16, 8, other.seq)]
  else 0
/-- CRW (Table 8.10). -/
def crwRead (reg : Nat) (s : State) : Word :=
  let g := s.cmd
  let im := fun (f : Image → Nat) => (s.img.applied.map f).getD 0
  if !s.responds .crw then 0
  else if 0x100 ≤ reg ∧ reg < 0x200 then
    let k := (reg - 0x100) / 4
    packWord [(0, 3, s.crewCode k), (3, 1, bit (s.crew k).bcast), (16, 16, (s.crew k).resetDropped)]
  else if 0x200 ≤ reg ∧ reg < 0x400 then
    let k := (reg - 0x200) / 8
    if reg % 8 = 0 then shareRead k false s
    else packWord [(0, 17, s.quotaShown k (s.cellQuota k)), (20, 12, s.quotaShown k (s.queueQuota k))]
  else if 0x400 ≤ reg ∧ reg < 0xC00 then
    let k := (reg - 0x400) / 32
    let n := (reg - 0x400) / 4 % 8
    packWord [(0, 13, s.quotaShown k (s.tcQuota k n)), (16, 13, s.tcUsed k n)]
  else if 0x1080 ≤ reg ∧ reg < 0x3000 then
    ((s.sec ((reg - 0x1000) / 0x80)).map (fun c => byteWord c.bytes (reg % 0x80 / 4))).getD 0
  else if 0x4100 ≤ reg ∧ reg < 0x8000 then
    let c := s.crew ((reg - 0x4000) / 0x100)
    mboxRead c.mboxDn c.mboxUp (reg % 0x100)
  else if 0x8200 ≤ reg ∧ reg < 0x8400 then if reg % 8 = 0 then shareRead ((reg - 0x8200) / 8) true s else 0
  else match reg with
  | 0x04 => packWord [(0, 3, g.trunk), (3, 2, g.resource), (5, 3, g.ep), (16, 9, g.addr)]
  | 0x08 => packWord [(0, 17, g.amount), (24, 8, g.weight)]
  | 0x0C => packWord [(0, 1, bit g.busy), (4, 4, g.reason), (8, 4, g.lastOp)]
  | 0x10 => packWord [(0, 17, im (·.mgrCells)), (20, 12, im (·.mgrQueues))]
  | 0x14 => packWord [(0, 17, (s.cellFree 0).toNat), (20, 12, (s.queueFree 0).toNat)]
  | _ => 0

/-! RNG, DMA. -/

/-- A ring register (Table 9.7). -/
def ringRead (g : Ring) (reg : Nat) : Word :=
  match reg with
  | 0x00 => loWord g.base
  | 0x04 => hiWord g.base
  | 0x08 => packWord [(0, 5, g.sizeLog2), (8, 3, g.cq)]
  | 0x0C => g.pi
  | 0x10 => g.ci
  | 0x14 => g.done
  | 0x18 => packWord [(0, 2, g.state.code), (8, 8, g.haltStatus), (16, 16, g.haltIndex)]
  | _ => 0
/-- A completion-queue register (Table 9.7). -/
def cqRead (g : Cq) (reg : Nat) : Word :=
  match reg with
  | 0x00 => loWord g.base
  | 0x04 => hiWord g.base
  | 0x08 => packWord [(0, 5, g.sizeLog2), (8, 5, g.vector)]
  | 0x0C => g.head
  | 0x10 => g.tail
  | 0x14 => packWord [(0, 1, bit g.enabled), (1, 1, bit g.stalled)]
  | _ => 0
/-- The ring and queue registers of crew `k` (R332). -/
def rngRead (acc : Acc) (k w : Nat) (s : State) : Word :=
  if !s.regOk acc k .rng then 0
  else if w < 0x100 then ringRead (s.ring k (w / 0x20)) (w % 0x20)
  else if w < 0x200 then cqRead (s.cq k ((w - 0x100) / 0x20)) (w % 0x20)
  else 0

/-- The channel moves data: a work-ring channel serves a transfer; a stream channel reads, holds or writes bytes
(`DCH_STATUS.busy`; log 53). -/
def Ch.busy (h : Ch) : Bool := h.serve.isSome || h.srcAsked || !h.staging.isEmpty || !h.inFlight.isEmpty
/-- `DCH_STATUS` (Table 10.10). -/
def chStatus (c : Nat) (s : State) : Word :=
  let h := s.ch c
  if s.isStream c then packWord [(0, 2, h.state.code), (2, 1, bit h.ownWait), (3, 1, bit h.cqStalled), (4, 1, bit h.busy),
    (8, 8, h.haltStatus), (16, 16, h.haltIndex)]
  else packWord [(0, 2, bit (s.chOwner c != 0xFF && s.crewRuns (s.chOwner c))), (4, 1, bit h.busy)]
/-- A channel register (Table 10.10); of a work-ring channel only `DCH_STATUS` responds (R361). -/
def chRegRead (acc : Acc) (k c reg : Nat) (s : State) : Word :=
  let h := s.ch c
  if !s.chAccess acc k c then 0
  else if reg = 0x38 then chStatus c s
  else if !s.isStream c then 0
  else match reg with
  | 0x00 => loWord h.ringBase
  | 0x04 => hiWord h.ringBase
  | 0x08 => packWord [(0, 4, h.sizeLog2), (8, 1, bit h.record), (9, 1, bit h.dirOut), (16, 5, h.vector)]
  | 0x0C => h.pi
  | 0x10 => h.ci
  | 0x14 => loWord h.circBase
  | 0x18 => hiWord h.circBase
  | 0x1C => packWord [(0, 5, h.w)]
  | 0x20 => h.cursor
  | 0x24 => loWord h.cqBase
  | 0x28 => hiWord h.cqBase
  | 0x2C => packWord [(0, 4, h.cqSizeLog2)]
  | 0x30 => h.cqHead
  | 0x34 => h.cqTail
  | _ => 0
/-- DMA (Tables 10.9, 10.10). -/
def dmaRead (reg : Nat) (s : State) : Word :=
  if !s.responds .dma then 0
  else if reg < 0x80 then
    let c := s.chImg (reg / 4)
    packWord [(0, 8, c.owner), (8, 2, c.level), (10, 2, c.purpose)]
  else if 0x1000 ≤ reg ∧ reg < 0x1800 then chRegRead .bar0 0 ((reg - 0x1000) / 0x40) (reg % 0x40) s
  else match reg with
  | 0x100 => packWord [(0, 7, s.pci.tags.length), (16, 7, s.pci.tagPeak)]
  | 0x104 => natWord s.pci.tagWait
  | 0x204 => packWord [(0, 4, (s.crew 0).bindReason)]
  | _ => 0

/-! CQ, EPM. -/

/-- A receive-port register (Table 11.11): either half of `RXP_POP` reads 0 (R502). -/
def rxpRead (k p reg : Nat) (s : State) : Word :=
  let x := s.rxp k p
  if !s.portAccess k then 0
  else match reg with
  | 0x00 => packWord [(0, 14, x.ctx), (16, 1, bit x.packet), (24, 5, x.vector)]
  | 0x04 => packWord [(0, 13, x.window), (16, 13, x.threshold)]
  | 0x0C => packWord [(0, 2, x.state.code), (2, 1, bit x.above), (4, 4, x.reason), (16, 13, x.level)]
  | 0x18 => packWord [(0, 16, x.dropped), (16, 16, x.emptyPops)]
  | 0x1C => packWord [(0, 16, x.resyncs)]
  | _ => 0
/-- CQ (Table 11.10). -/
def cqBlockRead (reg : Nat) (s : State) : Word :=
  let c := s.cells
  if !s.responds .cq then 0
  else if 0x10 ≤ reg ∧ reg < 0x20 then
    let b := (reg - 0x10) / 4
    packWord [(0, 15, c.free b), (16, 16, Tab.get 0 c.corr b)]
  else if 0x100 ≤ reg ∧ reg < 0x200 then rxpRead 0 ((reg - 0x100) / 0x40) (reg % 0x40) s
  else match reg with
  | 0x00 => packWord [(0, 17, c.free 0 + c.free 1 + c.free 2 + c.free 3), (20, 12, (s.xfers.filter (·.2.queue)).length + s.queuesZeroing (fun _ => true))]
  | 0x20 => packWord [(0, 16, c.mismatch), (16, 16, c.eccResets)]
  | _ => 0

/-- `EPM_CTX` of a context (Table 11.9). -/
def epmCtxRead (c : Nat) (s : State) : Word :=
  let x := s.ctx c
  let e := x.epm
  packWord [(0, 1, bit e.withhold.written), (1, 1, bit e.stageWait.written), (2, 1, bit e.repeats.written),
    (3, 1, bit (x.kind == 2)), (4, 2, e.state.code), (6, 1, bit e.lost), (7, 1, bit e.pending.isSome),
    (8, 7, e.data.length), (16, 16, e.frame)]
/-- The shadow of `EPM_CTX` (Table 16.5). -/
def epmCtxForce (c : Nat) (s : State) : Word :=
  let e := (s.ctx c).epm
  packWord [(0, 1, bit e.withhold.inForce), (1, 1, bit e.stageWait.inForce), (2, 1, bit e.repeats.inForce)]
/-- `EPM_STAT` of a context. -/
def epmStatRead (c : Nat) (s : State) : Word :=
  packWord [(0, 16, (s.ctx c).epm.overwritten), (16, 16, (s.ctx c).epm.withheld)]
/-- KiB of the buffers allocated in a bank: even trunks draw on bank 0; a part KiB rounds either way (log 1). -/
def State.bankKib (s : State) (b : Nat) : Nat :=
  let used := ((s.ctxs.filter (fun c => c.2.used && c.2.trunk % 2 == b)).map (fun c => c.2.epm.size)).sum
  if Config.roundUp s.freeCtr then ceilDiv used 1024 else used / 1024
/-- EPM (Table 11.9). -/
def epmRead (reg : Nat) (s : State) : Word :=
  let c := (s.crew 0).epmSel
  if !s.responds .epm then 0
  else match reg with
  | 0x00 => packWord [(0, 14, c)]
  | 0x04 => epmCtxRead c s
  | 0x08 => epmStatRead c s
  | 0x10 => packWord [(0, 10, s.bankKib 0), (16, 16, s.cells.epmCorr0)]
  | 0x14 => packWord [(0, 10, s.bankKib 1), (16, 16, s.cells.epmCorr1)]
  | 0x8004 => epmCtxForce c s
  | _ => 0

/-! ARB, TIM, TDM, EVT. -/

/-- ARB (Table 12.8). -/
def arbRead (a reg : Nat) (s : State) : Word :=
  let b := s.arb a
  if !s.responds .arb || decide (3 ≤ a) then 0
  else if 0x10 ≤ reg ∧ reg < 0x20 then
    let k := (reg - 0x10) / 4
    let p := fun (l : Nat) => Tab.get 0 b.ptr (k * 4 + l)
    if a = 0 ∨ k = 0 then packWord [(0, 6, p 0), (8, 6, p 1), (16, 6, p 2), (24, 6, p 3)] else 0
  else if 0x100 ≤ reg ∧ reg < 0x200 then
    let i := (reg - 0x100) / 4
    let r := s.arbReq a i
    if arbHas a i then packWord [(0, 2, r.level), (8, 8, r.units), (16, 1, bit r.starved), (17, 1, bit r.cut)] else 0
  else if 0x200 ≤ reg ∧ reg < 0x300 then
    let i := (reg - 0x200) / 4
    if arbHas a i then natWord (s.arbReq a i).grants else 0
  else match reg with
  | 0x00 => packWord [(0, 16, b.starveLimit), (16, 8, b.holdLimit)]
  | 0x04 => packWord [(0, 1, bit (b.reqs.any (·.2.starved))), (1, 1, bit (b.reqs.any (·.2.cut)))]
  | _ => 0

/-- The rate in force in steps of 0.01 ppb: a part step rounds either way (log 1). -/
def State.rateShown (s : State) : Int :=
  let r := s.tim.rate * 100
  if Config.roundUp s.freeCtr then r.ceil else r.floor
/-- TIM (Table 13.8). -/
def timRead (reg : Nat) (s : State) : Word :=
  let t := s.tim
  if !s.responds .tim then 0
  else if 0x1000 ≤ reg ∧ reg < 0x1800 then
    let h := (s.trk ((reg - 0x1000) / 0x100)).hub (s.hubAt ((reg - 0x1000) / 0x100) (reg % 0x100 / 4 + 1))
    packWord [(0, 24, h.dly), (31, 1, bit h.dlyValid)]
  else match reg with
  | 0x00 => packWord [(0, 6, t.srcOrder.toNat), (8, 1, bit t.allowBack), (16, 4, t.kp), (24, 4, t.ki)]
  | 0x04 => packWord [(0, 16, max 1 t.vigilLimit)]
  | 0x08 => packWord [(0, 1, bit t.pulseStart), (1, 1, bit t.pulseRunning), (12, 19, clampWidth t.pulseWidth)]
  | 0x10 => natWord t.ns
  | 0x14 => t.latchHi
  | 0x18 => t.latchFrac.zeroExtend 32
  | 0x20 => packWord [(0, 2, match t.state with | .unset => 0 | .locked => 1 | .vigil => 2 | .freeRun => 3),
      (4, 2, t.state.quality), (8, 2, t.source), (12, 1, bit t.converged), (13, 1, bit t.slewing),
      (14, 1, bit t.step.isSome), (16, 1, bit t.valid1), (17, 1, bit t.valid2), (18, 1, bit t.valid3)]
  | 0x24 => intWord t.theta
  | 0x28 => intWord s.rateShown
  | 0x2C => packWord [(0, 16, if t.state = .locked ∨ t.state = .unset then 0 else t.vigilT)]
  | 0x30 => t.setLo
  | 0x34 => t.setHi
  | 0x40 => packWord [(0, 16, t.ppsRejected), (16, 16, t.steps)]
  | _ => 0

/-- The 16 bytes of a ledger entry (Table 14.4). -/
def Ledger.bytes (l : Ledger) : List Byte :=
  leBytes 1 l.crew ++ leBytes 1 l.ring ++ leBytes 2 l.index ++ leBytes 4 l.cookie.toNat ++ leBytes 4 l.acked
    ++ leBytes 1 l.status ++ [0, 0, 0]
/-- TDM (Table 14.9). -/
def tdmRead (reg : Nat) (s : State) : Word :=
  let m := s.tdm
  let p := fun (f : PairBlock → Nat) => (m.partner.map f).getD 0
  if !s.responds .tdm then 0
  else if 0x40 ≤ reg ∧ reg < 0x50 then (m.ledger[m.ledgerSel]?.map (fun l => byteWord l.bytes ((reg - 0x40) / 4))).getD 0
  else if 0x100 ≤ reg ∧ reg < 0x120 then
    let t := s.trk ((reg - 0x100) / 4)
    packWord [(0, 2, t.mode.code), (2, 7, t.splitK), (9, 5, t.relayed.length), (14, 1, bit t.tailLock), (16, 16, t.relayWait)]
  else if 0x140 ≤ reg ∧ reg < 0x160 then
    let t := s.trk ((reg - 0x140) / 4)
    packWord [(0, 7, t.tailN), (7, 1, bit t.tailLearnt)]
  else match reg with
  | 0x00 => packWord [(0, 1, bit m.enable)]
  | 0x04 => packWord [(0, 3, m.pair.code), (3, 1, bit s.straps.role), (4, 1, bit m.active), (5, 1, bit m.fenced), (6, 1, bit m.lag),
      (7, 1, bit m.fenceIn), (8, 3, width m.maskTx), (12, 3, width m.maskRx), (16, 4, m.maskRx)]
  | 0x08 => packWord [(0, 8, m.epoch), (8, 1, bit m.epochValid)]
  | 0x0C => packWord [(0, 8, p (·.bp)), (8, 8, p (·.rev)), (16, 1, bit m.isMatch)]
  | 0x10 => packWord [(0, 16, m.closed), (16, 16, m.acked)]
  | 0x14 => packWord [(0, 21, m.size), (24, 5, m.kept.length)]
  | 0x18 => packWord [(0, 8, m.hbRun), (16, 16, m.hbTotal)]
  | 0x1C => packWord [(0, 16, m.crcBad), (16, 16, m.resends)]
  | 0x20 => packWord [(0, 16, m.claimFrame), (16, 13, m.ledger.length)]
  | 0x30 => packWord [(0, 12, m.ledgerSel)]
  | _ => 0

/-- An event-ring register of function `fn` (Table 15.8). -/
def evtRead (fn reg : Nat) (s : State) : Word :=
  let g := (s.crew fn).evt
  if !s.evtOk fn then 0
  else match reg with
  | 0x00 => loWord g.base
  | 0x04 => hiWord g.base
  | 0x08 => packWord [(0, 4, g.sizeLog2), (8, 5, g.vector)]
  | 0x0C => g.head
  | 0x10 => g.tail
  | 0x14 => packWord [(0, 1, bit g.enabled), (1, 7, g.backlog.length), (16, 16, g.lost)]
  | _ => 0
/-- `EVT_MOD[v]` (R492). -/
def evtModRead (fn i : Nat) (s : State) : Word :=
  if !s.evtOk fn then 0 else packWord [(0, 10, ((s.crew fn).vec i).holdoff), (16, 8, ((s.crew fn).vec i).count)]
/-- A word of the MSI-X table of function `fn` (R500). -/
def msixRead (fn off : Nat) (s : State) : Word :=
  let v := (s.crew fn).vec (off / 16)
  if !s.fnExists fn || decide (512 ≤ off) then 0
  else match off % 16 with
  | 0x0 => loWord v.addr
  | 0x4 => hiWord v.addr
  | 0x8 => v.data
  | _ => packWord [(0, 1, bit v.masked)]
/-- The pending-bit array of function `fn` (R500): 32 vectors. -/
def pbaRead (fn w : Nat) (s : State) : Word :=
  if !s.fnExists fn || w != 0 then 0 else natWord (bitMap 32 (fun i => ((s.crew fn).vec i).pba))

/-! The two layouts (Tables 16.2, 16.3, 16.22). -/

/-- A 4-byte read in manager BAR0 (Table 16.2). -/
def bar0Read (off : Nat) (s : State) : Word :=
  if off < 0x10000 then glbRead off s
  else if off < 0x20000 then imgRead (off - 0x10000) s
  else if off < 0x30000 then pwrRead (off - 0x20000) s
  else if off < 0x40000 then calRead (off - 0x30000) s
  else if off < 0x48000 then trkRead ((off - 0x40000) / 0x1000) (off % 0x1000) s
  else if off < 0x80000 then 0
  else if off < 0xC0000 then rosRead (off - 0x80000) s
  else if off < 0x100000 then coxRead (off - 0xC0000) s
  else if off < 0x140000 then crwRead (off - 0x100000) s
  else if off < 0x150000 then rngRead .bar0 ((off - 0x140000) / 0x400) (off % 0x400) s
  else if off < 0x180000 then 0
  else if off < 0x1C0000 then dmaRead (off - 0x180000) s
  else if off < 0x1E0000 then cqBlockRead (off - 0x1C0000) s
  else if off < 0x200000 then epmRead (off - 0x1E0000) s
  else if off < 0x240000 then arbRead ((off - 0x200000) / 0x1000) (off % 0x1000) s
  else if off < 0x280000 then timRead (off - 0x240000) s
  else if off < 0x2C0000 then tdmRead (off - 0x280000) s
  else if 0x2C0100 ≤ off ∧ off < 0x2C0180 then evtModRead 0 ((off - 0x2C0100) / 4) s
  else if off < 0x2C0100 then evtRead 0 (off - 0x2C0000) s
  else 0

/-- A 4-byte read in the window of crew `k` (Tables 8.3, 16.3): `CRW_W_ID`, the MSI-X table and the PBA answer in
every state, the other registers while the crew is RUNNING. -/
def windowRead (k off : Nat) (s : State) : Word :=
  if off = 0 then (if s.responds .crw then packWord [(0, 6, k), (8, 3, s.crewCode k)] else 0)
  else if 0xE000 ≤ off ∧ off < 0xE200 then msixRead k (off - 0xE000) s
  else if 0xF000 ≤ off ∧ off < 0xF008 then pbaRead k ((off - 0xF000) / 4) s
  else if !s.crewRuns k then 0
  else if 0x100 ≤ off ∧ off < 0x300 then rngRead .window k (off - 0x100) s
  else if 0x300 ≤ off ∧ off < 0x380 then evtRead k (off - 0x300) s
  else if 0x380 ≤ off ∧ off < 0x400 then evtModRead k ((off - 0x380) / 4) s
  else if 0x400 ≤ off ∧ off < 0x440 then
    if s.responds .cox then statRead k ((off - 0x400) / 8) (off / 4 % 2) s else 0
  else if 0x800 ≤ off ∧ off < 0x900 then
    if s.responds .crw then mboxRead (s.crew k).mboxUp (s.crew k).mboxDn (off - 0x800) else 0
  else if 0xC04 ≤ off ∧ off < 0xC10 then
    if !s.responds .dma then 0
    else if off = 0xC04 then packWord [(0, 4, (s.crew k).bindReason)]
    else if off = 0xC08 then natWord (bitMap 32 (fun c => s.chOwner c == k))
    else natWord (bitMap 32 s.isStream)
  else if 0xD00 ≤ off ∧ off < 0xD0C then
    let c := (s.crew k).epmSel
    let own := (s.ctx c).used && (s.ctx c).owner == k
    if !s.responds .epm then 0
    else if off = 0xD00 then packWord [(0, 14, c)]
    else if !own then 0
    else if off = 0xD04 then epmCtxRead c s
    else epmStatRead c s
  else if 0xE00 ≤ off ∧ off < 0xF00 then rxpRead k ((off - 0xE00) / 0x40) (off % 0x40) s
  else if 0x1000 ≤ off ∧ off < 0x1800 then chRegRead .window k ((off - 0x1000) / 0x40) (off % 0x40) s
  else if off = 0x8D04 then
    let c := (s.crew k).epmSel
    if s.responds .epm && (s.ctx c).used && (s.ctx c).owner == k then epmCtxForce c s else 0
  else 0

/-- One aligned 4-byte read (R500). -/
def wordRead (fn bar off : Nat) (s : State) : Word :=
  if off % 4 ≠ 0 then 0
  else if fn = 0 then
    if bar = 0 then bar0Read off s
    else if bar = 2 then (if 0x8000 ≤ off ∧ off < 0x8008 then pbaRead 0 ((off - 0x8000) / 4) s else msixRead 0 off s)
    else 0
  else if bar = 0 then windowRead fn off s else 0

/-- The effect of a 4-byte read on the state (Table 16.4; `RXP_POP` is the row of its own). -/
def readEffect (fn bar off : Nat) (s : State) : State :=
  if fn ≠ 0 ∨ bar ≠ 0 ∨ off % 4 ≠ 0 then s
  else if off = 0x240010 then timLatch s
  else if off = 0x180100 then tagsRestart s
  else if 0x200000 ≤ off ∧ off < 0x203000 ∧ 0x200 ≤ off % 0x1000 ∧ off % 0x1000 < 0x300 then
    grantsClear ((off - 0x200000) / 0x1000) ((off % 0x1000 - 0x200) / 4) s
  else s

/-- A read request of `n` words, carried out as 4-byte reads at ascending offsets (R501, R502). -/
def regRead (fn bar : Nat) : Nat → Nat → State → List Word × State
  | _, 0, s => ([], s)
  | off, n + 1, s =>
    let r := regRead fn bar (off + 4) n (readEffect fn bar off s)
    (wordRead fn bar off s :: r.1, r.2)

/-- A read that meets an uncorrectable error in the memory behind a register completes with poisoned data, which are
open, and the error is logged on the reading function (R512). -/
def poisonedRead (fn off n : Nat) (s : State) : List Word × State :=
  let r := freeBytes (4 * n) (logAer (some fn) (BitVec.ofNat 64 off) .internal s)
  ((List.range n).map (fun i => BitVec.ofNat 32 (leAt r.1 (4 * i) 4)), r.2)

end Sys2Proof.Machine
end

