-- ==== Sys2Proof/Safety.lean ====
section
/-! DEFINITION. What counts as a safe run, and the terms claims use: every step answers a next state, the
state keeps the bounds the manual gives (backlog of R490, tags of R336), what a command may touch, and an
event as its function receives it. -/

namespace Sys2Proof.Machine

/-- A step goes on. -/
def Goes (s : State) : Prop := ∃ t, step s = .next t

/-- The backlog of every function holds at most 64 records (R490). -/
def backlogBounded (s : State) : Prop := ∀ k, ((s.crew k).evt.backlog.length ≤ 64)

/-- Every event of a command has been delivered by its end (R488). -/
def eventsDelivered (s : State) : Prop := s.stage = []

/-- At most 64 tags are in use (R336). -/
def tagsBounded (s : State) : Prop := s.pci.tags.length ≤ 64

/-- The fuse shadow mirrors the fuses from the end of the POR delay on (R116, R83). -/
def shadowMirrors (s : State) : Prop := s.pwr.stage ≠ .porDelay → s.shadow = s.fuse

/-- The commands that may move the foundations of a run (fuses, straps, pins, the start-up stage, device time, the frame
count): resets, supplies and start-up, a fuse that blows, boundaries and seconds, deadlines of device time, and
register writes. -/
def movesFoundations (c : Instr) : Bool :=
  c matches .powerOnReset _ | .porDelayDone _ | .clockFailReset _ | .refclkReturn | .perstNAssert | .perstNDeassert _
    | .hotReset | .dlDown | .pwrResetCtrl _ | .releasePoint _ | .managerReset | .vddio33Low | .vddio33Restored _
    | .domainPowerGood _ | .fuseBlowDone | .frameBoundary .. | .timeSecond | .registerWrite .. | .refValidityTimeout _
    | .vigilLimitExpired | .tpulseRise | .tpulseFall | .msixHoldoffExpiry ..

/-- The pieces of the state, numbered ones one by one; an event ring counts apart from its crew. -/
inductive Part where
  | pins | straps | fuse | shadow | pwr | cal | img | pci | tim | trk (n : Nat) | ros | ctx (c : Nat) | cox
  | crew (k : Nat) | evt (k : Nat) | cmd | fetchPtr | xfers | seq | cells | ch (c : Nat) | arb (a : Nat) | tdm | jtag
  | frame | freeCtr | out | pending
  deriving DecidableEq, Repr

/-- A piece reads the same in both states. -/
def Part.same (s t : State) : Part → Prop
  | .pins => t.pins = s.pins
  | .straps => t.straps = s.straps
  | .fuse => t.fuse = s.fuse
  | .shadow => t.shadow = s.shadow
  | .pwr => t.pwr = s.pwr
  | .cal => t.cal = s.cal
  | .img => t.img = s.img
  | .pci => t.pci = s.pci
  | .tim => t.tim = s.tim
  | .trk n => t.trk n = s.trk n
  | .ros => t.ros = s.ros
  | .ctx c => t.ctx c = s.ctx c
  | .cox => t.cox = s.cox
  | .crew k => { t.crew k with evt := {} } = { s.crew k with evt := {} }
  | .evt k => (t.crew k).evt = (s.crew k).evt
  | .cmd => t.cmd = s.cmd
  | .fetchPtr => t.fetchPtr = s.fetchPtr
  | .xfers => t.xfers = s.xfers
  | .seq => t.seq = s.seq
  | .cells => t.cells = s.cells
  | .ch c => t.ch c = s.ch c
  | .arb a => t.arb a = s.arb a
  | .tdm => t.tdm = s.tdm
  | .jtag => t.jtag = s.jtag
  | .frame => t.frame = s.frame
  | .freeCtr => t.freeCtr = s.freeCtr
  | .out => t.out = s.out
  | .pending => t.pending = s.pending

/-- Nothing but the pieces named has changed. -/
def Only (touched : Part → Bool) (s t : State) : Prop := ∀ p, touched p = false → p.same s t

/-- An event delivered to function `fn` at this instant (R487, R490). -/
def State.told (fn : Nat) (name : EventName) (trunk detail : Nat) (s : State) : State :=
  s.updCrew fn (·.pushEvent ⟨name, trunk, detail, s.tim.ns⟩)

/-- The event has reached its function. -/
def Told (s t : State) (fn : Nat) (name : EventName) (trunk detail : Nat) : Prop :=
  (t.crew fn).evt = ((s.crew fn).pushEvent ⟨name, trunk, detail, s.tim.ns⟩).evt

/-- Fuses are being blown (R83, R84). -/
def State.blowing (s : State) : Prop := ∃ r, s.img.run = some r ∧ r.phase = .blowing

/-- What a power-on and a clock-fail reset leave at its reset value (Table 4.3). -/
def Cleared (t : State) : Prop :=
  t.cal = {} ∧ t.img = {} ∧ t.pci = {} ∧ t.trks = [] ∧ t.ros = {} ∧ t.ctxs = [] ∧ t.cox = {} ∧ t.crews = []
    ∧ t.cmd = {} ∧ t.xfers = [] ∧ t.cells = {} ∧ t.chs = [] ∧ t.arbs = [] ∧ t.frame = 0

/-- What a warm reset with one cause bit clears and keeps (Table 4.3, R120). -/
def WarmFrom (cause : BitVec 8) (s t : State) : Prop :=
  t.pwr.stage = .waitRelease
    ∧ t.pwr.on = s.pwr.on &&& (if s.pwr.tripped ∧ s.pwr.tripCool = false then 0x600007 else 0x600003)
    ∧ t.pwr.tripped = (s.pwr.tripped && !s.pwr.tripCool)
    ∧ t.pwr.cause = (s.pwr.cause ||| cause ||| if s.pwr.tripped then 0x80 else 0)
    ∧ t.img = {} ∧ t.pci = { aer := s.pci.aer } ∧ t.jtag = s.jtag ∧ t.ros = {} ∧ t.ctxs = [] ∧ t.cox = {} ∧ t.cmd = {} ∧ t.xfers = [] ∧ t.cells = {}
    ∧ t.chs = [] ∧ t.arbs = [] ∧ t.straps = s.straps ∧ t.tim.ns = s.tim.ns ∧ t.tim.sub = s.tim.sub
    ∧ t.tim.pulseHigh = s.tim.pulseHigh ∧ t.frame = s.frame ∧ t.pending = s.pending
    ∧ (¬ s.blowing → t.fuse = s.fuse ∧ t.shadow = s.shadow)

/-- What the release point leaves: S2 and S3 run, the straps are sampled, their domains are on or asked for
(R116, R121, Table 4.4); while a trip stands, the PCIe domain alone (R133). -/
def Released (straps : Straps) (s t : State) : Prop :=
  t.pwr.stage = .started ∧ t.pwr.s2 = .running ∧ t.straps = straps
    ∧ (t.isOn 2 = true ∨ t.pwr.wait.getLsbD 2 = true)
    ∧ (if s.pwr.tripped then t.pwr.s3 = .idle
       else t.pwr.s3 = .running
         ∧ ∀ d ∈ [11, 12, 13, 14, 15, 16, 18, 19], t.isOn d = true ∨ t.pwr.wait.getLsbD d = true)
    ∧ Only (fun p => p ∈ [.pins, .straps, .pwr] || p matches .evt _) s t

/-- An IMG operation has begun: busy, waiting for the verifier's domain (R96, R110). -/
def ImgBegins (op : Nat) (slotB : Bool) (s t : State) : Prop :=
  t.img.busy = true
    ∧ t.img.run = some { op := op, phase := .powerUp, slotB := slotB, crewsAt := if op = 2 then s.crewsThere else [] }
    ∧ (t.isOn 20 = true ∨ t.pwr.wait.getLsbD 20 = true) ∧ t.img.applied = s.img.applied ∧ t.img.state = s.img.state
    ∧ Only (fun p => p ∈ [.img, .pwr]) s t

/-- The host writes by which channel `c` copies the sample of context `x` to its circular buffer (R335, R348). -/
def State.sampleWrites (s : State) (c x : Nat) : List HostReq :=
  (circWrites (s.ch c).circBase (s.ch c).w (s.ch c).cursor s.pci.maxPayload (s.ctx x).epm.data).map
    (fun w => ⟨c, s.chOwner c, .write w.1 w.2 none⟩)

/-- What a failed descriptor read leaves: the ring halted with `HOST_MEM_ERR` at CI, the error logged and told (R269, R323). -/
def ReadFailed (k r : Nat) (a : Addr) (kind : AerKind) (s t : State) : Prop :=
  (t.ring k r).state = .halted ∧ (t.ring k r).haltStatus = stHostMemErr
    ∧ (t.ring k r).haltIndex = (s.ring k r).ci.toNat % 65536 ∧ (t.ring k r).ci = (s.ring k r).ci + 1
    ∧ (t.ring k r).ents = (s.ring k r).ents ++ [⟨true, 0, some (stHostMemErr, 0)⟩] ∧ .aer k a kind ∈ t.out
    ∧ Tab.get 0 t.pci.aer k = Tab.get 0 s.pci.aer k ||| (1#32 <<< kind.bit)
    ∧ Told s t k .ringHalted 255 (pairDetail k r) ∧ Told s t 0 .ringHalted 255 (pairDetail k r)

/-- The placement of R240: the first offset in the periodic part at which the entry fits in every frame in which it
is due. -/
def FirstFit (s : State) (x : Ctx) (ilog2 phase : Nat) (tail : Bool) (o : Nat) : Prop :=
  s.p0 x.trunk ≤ o ∧ o + (s.almQuant x tail).d ≤ s.capEnd x.trunk
    ∧ (∀ f ∈ dueFrames ilog2 phase, fitsAt (s.almResv x.trunk f tail (fun _ => false)) (s.almQuant x tail) true o = true)
    ∧ (∀ o', s.p0 x.trunk ≤ o' → o' < o →
        ∃ f ∈ dueFrames ilog2 phase, fitsAt (s.almResv x.trunk f tail (fun _ => false)) (s.almQuant x tail) true o' = false)

end Sys2Proof.Machine
end

