-- ==== Sys2Proof/WellFormed.lean ====
section
/-! DEFINITION. Well-formed commands: every operand lies in the range its register field, header field or
block gives it.  Machine/ takes any term; a command that reaches the block is well-formed. -/

namespace Sys2Proof

/-- A configuration request addresses the 4 KiB configuration space; a count has 16 bits; a size is one PCI
Express knows (R123). -/
def CfgReq.wf : CfgReq → Bool
  | .read o => decide (o < 4096) && o % 4 == 0
  | .show _ => true
  | .clearAer _ => true
  | .setVfEnable => true
  | .setNumVfs n => decide (n < 65536)
  | .setMaxPayload b => [128, 256, 512, 1024, 2048, 4096].contains b
  | .setMaxRead b => [128, 256, 512, 1024, 2048, 4096].contains b
  | .setCplTimeout c => decide (c < 16)

/-- The payload length has 9 bits (Table 5.4). -/
def RxPkt.wf (p : RxPkt) : Bool := decide (p.payload.length < 512)

/-- A read asks for at most 4,096 bytes (R336). -/
def ReadResult.wf : ReadResult → Bool
  | .data b => decide (b.length ≤ 4096)
  | .unsupported => true
  | .aborted => true

/-- A scope of SUSPEND and RESUME (Table 6.8, Table 6.14): a port 1 to 15 or the far side 16 of a hub, or hub 0
with port 16 for the trunk. -/
def scopeWf (hub port : Nat) : Bool := decide (hub ≤ 64) && decide (1 ≤ port) && decide (port ≤ 16) && (hub != 0 || port == 16)
/-- A port of RESET_PORT: of a hub (R202). -/
def portWf (hub port : Nat) : Bool := decide (1 ≤ hub) && scopeWf hub port

/-- Requesters of the three arbiters (R393). -/
def requesters (a : Fin 3) : Nat := match a with | 0 => 12 | 1 => 32 | 2 => 35

/-- A PAIR block's fields (R439). -/
def PairBlock.wf (b : PairBlock) : Bool :=
  decide (b.bp < 256) && decide (b.rev < 256) && b.digest.length == 32 && decide (b.epoch < 256) && b.hops.length == 8
    && b.hops.all (fun h => decide (h < 128)) && decide (b.mask < 16) && decide (b.pair < 8)

/-- Key fields of a catch entry: trunk, address and endpoint (Table 14.3). -/
def keyWf (trunk addr ep : Nat) : Bool := decide (trunk < 8) && decide (addr < 512) && decide (ep < 8)
/-- A catch entry's fields (Table 14.3). -/
def CatchEntry.wf : CatchEntry → Bool
  | .epState trunk addr ep _ _ _ outOld outNext inE tag _ setup bseq =>
    keyWf trunk addr ep && decide (outOld < 16) && decide (outNext < 16) && decide (inE < 16) && decide (tag < 16)
      && (setup.isEmpty || setup.length == 8) && decide (bseq < 256)
  | .allow trunk addr ep ptype sq _ _ aux _ payload =>
    keyWf trunk addr ep && decide (ptype < 16) && decide (sq < 16) && decide (aux < 256) && decide (payload.length ≤ 256)
  | .xfer crew ring index _ _ _ => decide (crew < 64) && decide (ring < 8) && decide (index < 65536)
  | .node trunk addr entry => keyWf trunk addr 0 && entry.length == 64
  | .line trunk hub far lec tec _ _ _ _ k rate =>
    decide (trunk < 8) && decide (hub ≤ 64) && decide (far < 256) && decide (lec < 256) && decide (tec < 256)
      && decide (k < 256) && decide (rate < 4)
  | .alm trunk addr ep _ entry => keyWf trunk addr ep && entry.length == 16

/-- A CLOSE entry's fields (Table 14.3). -/
def CatchClose.wf (c : CatchClose) : Bool :=
  decide (c.frame < 65536) && decide (c.epoch < 256) && decide (c.count < 4294967296)

/-- A transaction's packets (Tables 5.3, 5.4). -/
def TxnKind.wf : TxnKind → Bool
  | .tokenP _ => true
  | .tokenB q n => decide (q < 16) && decide (1 ≤ n) && decide (n ≤ 8)
  | .dataP _ b => decide (b.length ≤ 256)
  | .dataB l => decide (1 ≤ l.length) && decide (l.length ≤ 8)
      && l.all (fun p => decide (p.1 < 16) && decide (p.2.2.length ≤ 256))
  | .setup tag b => decide (tag < 16) && b.length == 8
  | .hopReq e => decide (e < 256)
  | .bcast q b => decide (q < 256) && decide (b.length ≤ 256)
  | .claim e a => decide (e < 256) && decide (a < 256)

/-- A relay request's fields (R464). -/
def RelayReq.wf (r : RelayReq) : Bool :=
  r.kind.wf && keyWf r.trunk.val r.addr r.ep && decide (r.hub ≤ 64) && decide (r.longest ≤ 256)
/-- A relay result's fields (R464). -/
def RelayRes.wf (r : RelayRes) : Bool :=
  decide (r.ptype < 16) && decide (r.sq < 16) && decide (r.aux < 256) && decide (r.payload.length ≤ 256)

/-- The operands of a command lie in their ranges. -/
def Instr.wf : Instr → Bool
  | .powerOnReset _ => true
  | .porDelayDone _ => true
  | .pllLock => true
  | .clockFailReset _ => true
  | .refclkReturn => true
  | .perstNAssert => true
  | .perstNDeassert _ => true
  | .hotReset => true
  | .dlDown => true
  | .pwrResetCtrl _ => true
  | .releasePoint _ => true
  | .managerReset => true
  | .vfFlr _ => true
  | .vfEnableClear => true
  | .busMasterEnableWrite _ _ => true
  | .configRequest _ req => req.wf
  | .domainPowerGood _ => true
  | .domainPowerTimeout _ => true
  | .sramSweepDone _ => true
  | .ltssmDetect _ => true
  | .s5Complete _ => true
  | .pwrDomainReq _ => true
  | .calUserWrite _ _ => true
  | .clearUser => true
  | .monitorSample _ rawMv => rawMv.length == 8
  | .monitorConditionChange _ => true
  | .thermalTrip => true
  | .vddio33Low => true
  | .pushFull => true
  | .pushDelta => true
  | .imgStore _ => true
  | .commitRollback => true
  | .programKeyHash => true
  | .imageVerifyDone _ _ => true
  | .flashStatusReady _ => true
  | .frameBoundary => true
  | .urgentPartStart _ => true
  | .occurrenceIssue _ => true
  | .controlBulkStart _ => true
  | .transactionIssue _ => true
  | .frameGuard => true
  | .responseBudgetExpired _ _ => true
  | .retryExhausted _ => true
  | .rxDataP _ _ p => p.wf
  | .hubEventSample _ _ p => p.wf
  | .rxDataB _ _ p _ => p.wf
  | .rxAck _ _ p => p.wf
  | .rxNak _ _ p => p.wf
  | .rxStall _ _ p => p.wf
  | .rxBurstAck _ _ p => p.wf
  | .rxHopRsp _ _ p _ => p.wf
  | .rxClaim _ _ p => p.wf
  | .rxWake _ _ => true
  | .resumeSignalEnd _ => true
  | .trkStart _ => true
  | .linePowerCheck _ _ => true
  | .trkStop _ => true
  | .trkRateChg _ => true
  | .trkClrStat _ => true
  | .rateIdleResume _ => true
  | .rateConfirmTimeout _ => true
  | .lineLockLost _ => true
  | .lineLock _ _ => true
  | .lineFault _ => true
  | .lfaultRecovered _ => true
  | .attachStart _ => true
  | .attachStepDone _ => true
  | .nodeAttachFailed _ => true
  | .headAnchorAttach _ => true
  | .rosAdopt slot => decide (slot < 16)
  | .rosAcceptNew slot => decide (slot < 16)
  | .rosReject slot => decide (slot < 16)
  | .rosDelete entry => decide (entry < 4096)
  | .rosSuspend _ hub port => scopeWf hub port
  | .rosResume _ hub port => scopeWf hub port
  | .rosResetPort _ hub port => portWf hub port
  | .almAdd _ ilog2 phase => decide (ilog2 < 16) && decide (phase < 256)
  | .almRemove _ => true
  | .almRead _ => true
  | .almOpComplete => true
  | .crwCreate _ => true
  | .crwTearDown _ => true
  | .crwReset _ => true
  | .grantEndpoint _ => true
  | .revokeEndpoint _ => true
  | .setExtraQuota _ => true
  | .setShare _ => true
  | .grantUrgentBroadcast _ => true
  | .withdrawUrgentBroadcast _ => true
  | .crewCmdComplete => true
  | .crewCmdTimeout => true
  | .mbxUpDb _ len seq => decide (len < 32) && decide (seq < 256)
  | .mbxDnDb _ len seq => decide (len < 32) && decide (seq < 256)
  | .mbxUpAck _ seq => decide (seq < 256)
  | .mbxDnAck _ seq => decide (seq < 256)
  | .rngEnable _ _ _ => true
  | .rngShutdown _ _ _ => true
  | .rngRestart _ _ _ => true
  | .cqEnable _ _ _ => true
  | .cqDisable _ _ _ => true
  | .rngPiWrite _ _ _ _ => true
  | .cqHeadWrite _ _ _ _ => true
  | .fetchTurn => true
  | .chainLimit _ => true
  | .readCompletion _ res => res.wf
  | .completionTimeout _ => true
  | .nakTimeout _ => true
  | .completionRecordWrite _ _ => true
  | .workRingChannelTake _ => true
  | .arbDecision arb _ reqs _ => reqs.all (fun i => decide (i < requesters arb)) && reqs.Nodup
  | .arbHolderCut _ _ => true
  | .arbStarved arb req => decide (req < requesters arb)
  | .arbCutClear arb req => decide (req < requesters arb)
  | .arbGrantsRead arb req => decide (req < requesters arb)
  | .dmaTagsRead => true
  | .dchEnable _ _ _ => true
  | .dchStop _ _ _ => true
  | .dchRestart _ _ _ => true
  | .dchPiWrite _ _ _ _ => true
  | .dchCqHeadWrite _ _ _ _ => true
  | .dmaBind _ _ _ => true
  | .dmaUnbind _ _ _ => true
  | .dmaCapture _ => true
  | .dmaRead _ => true
  | .dmaStage _ => true
  | .streamRecordWrite _ => true
  | .rxpOpen _ _ => true
  | .rxpClose _ _ => true
  | .rxpFlush _ _ => true
  | .rxpPop _ _ => true
  | .popTimeout _ _ => true
  | .rxpThresholdWrite _ _ value => decide (value < 8192)
  | .cellQueueReset _ _ => true
  | .timeSecond => true
  | .refppsEdge _ => true
  | .refValidityTimeout _ => true
  | .vigilLimitExpired => true
  | .timeSet => true
  | .mgrSampleWrite _ => true
  | .timNowRead => true
  | .pulseStart => true
  | .tpulseRise => true
  | .tpulseFall => true
  | .tdmLinkEnable _ => true
  | .handover => true
  | .forceClaim => true
  | .tdmClrStat => true
  | .laneLock _ => true
  | .laneLockLost _ => true
  | .heartbeatSend => true
  | .hbInEdge offUs => decide (offUs < 1000)
  | .rxHeartbeatBlock _ beat offUs => decide (beat.frame < 65536) && decide (offUs < 1000)
  | .heartbeatMiss => true
  | .tdmPartnerLost => true
  | .rxPairBlock b => b.body.wf
  | .rxCatchEntry b => b.body.wf
  | .rxCatchClose b => b.body.wf
  | .rxCatchAck b => decide (b.body < 65536)
  | .rxCatchNak b => decide (b.body < 65536)
  | .rxRelayRequest b => b.body.wf
  | .rxRelayResult b => b.body.wf
  | .splitHealCheck _ _ => true
  | .rxHealNotice _ => true
  | .rxTimeBlock _ _ state source => decide (state < 4) && decide (source < 4)
  | .fenceInChange _ => true
  | .claimFailed _ => true
  | .lineProbe _ target _ => decide (target ≤ 64)
  | .readmission _ target => decide (target ≤ 64)
  | .urgentExpired _ => true
  | .evtEnable _ => true
  | .evtDisable _ => true
  | .evtHeadWrite _ _ => true
  | .eventRecordWrite _ => true
  | .msixHoldoffExpiry _ _ => true
  | .msixVectorUnmask _ _ => true
  | .registerWrite _ _ offset words => decide (offset < 0x400000) && decide (1 ≤ words.length) && decide (words.length ≤ 1024)
  | .parkedPortSof _ hop epoch => decide (hop < 128) && decide (epoch < 256)
  | .parkedPortLrate _ rate => decide (rate < 4)
  | .parkedPortRateTryExpiry _ => true
  | .fuseBlowDone => true
  | .vddio33Restored _ => true
  | .pcieRefOkChange _ => true

end Sys2Proof
end

