-- ==== Sys2Proof/Certificates/Slice0/Obligations.lean ====
section
/-! DEFINITION. The statements for the provers. -/

section
open Sys2Proof Sys2Proof.Machine

/-! ### Resets and start-up (chapter 4) -/

/-- R115, Table 4.3: a power-on reset clears everything, and a clock-fail reset everything outside PD0 together with
device time; the straps, the fuse shadow and the reset causes lie in PD0.  The fuses are programmed once for good.
Completes (each answers a next state, by conditions on the state and the operands alone): `powerOnReset`,
`clockFailReset`. -/
def Obligations.PowerOnAndClockFailResetsClear : Prop :=
  (∀ (src : PorSource) (s : State), ∃ t, exec (.powerOnReset src) s = .next t ∧ Cleared t ∧ t.pwr.stage = .porDelay
      ∧ t.pwr.on = 0 ∧ t.pwr.cause = 1 ∧ t.tim.ns = 0 ∧ t.tim.running = false
      ∧ (¬ s.blowing → t.fuse = s.fuse) ∧ t.jtag = {} ∧ t.pending = s.pending)
  ∧ (∀ (c : ClockFault) (s : State), s.pwr.stage ≠ .porDelay → s.pwr.stage ≠ .clockFailed →
      ∃ t, exec (.clockFailReset c) s = .next t ∧ Cleared t ∧ t.pwr.on = 1
      ∧ t.pwr.cause = (s.pwr.cause ||| 2 ||| if s.pwr.tripped then 0x80 else 0)
      ∧ t.pwr.pllLock = false ∧ t.pwr.stage = (if c = .refclk then .clockFailed else .pll)
      ∧ t.tim.ns = 0 ∧ t.tim.running = false ∧ t.straps = s.straps ∧ t.jtag = s.jtag
      ∧ (¬ s.blowing → t.fuse = s.fuse ∧ t.shadow = s.shadow) ∧ t.pending = s.pending)
  ∧ (∀ (c : ClockFault) (s : State), eventsDelivered s → s.pwr.stage = .porDelay ∨ s.pwr.stage = .clockFailed →
      exec (.clockFailReset c) s = .next { s with pins := { s.pins with
        refclkOk := s.pins.refclkOk && !decide (c = .refclk) } })

/-- R115, R120, Table 4.3: `PERST_N` asserted after S1, a Hot Reset, a DL_Down and a `PWR_RESET_CTRL` write with bit [0] and
the key reset the machine: everything outside PD0 and PD21 is cleared, but for the sticky AER bits; PD0, PD1, PD21 and
PD22 stay on, and PD2 while a trip stands that has not cooled (R133); the straps, the fuses and device time are kept, and
the cause is added.  A trigger while the link's domain is off or before the release point does nothing.
R119: a write of `PWR_RESET_CTRL` without bit [0] or without the key is ignored.
Completes (each answers a next state, by conditions on the state and the operands alone): `perstNAssert`, `hotReset`,
`dlDown`, `pwrResetCtrl`. -/
def Obligations.WarmResetsFromTheirTriggersOnly : Prop :=
  ((∀ s : State, s.pins.perstHigh = true → s.warmOk = true →
      ∃ t, exec .perstNAssert s = .next t ∧ t.pins.perstHigh = false ∧ t.pwr.releaseTimer = false ∧ WarmFrom 4 s t)
  ∧ (∀ s : State, s.pwr.stage = .started → s.isOn 2 = true →
      ∃ t, exec .hotReset s = .next t ∧ t.pwr.releaseTimer = true ∧ WarmFrom 8 s t)
  ∧ (∀ s : State, s.pwr.stage = .started → s.isOn 2 = true →
      ∃ t, exec .dlDown s = .next t ∧ t.pwr.releaseTimer = true ∧ WarmFrom 16 s t)
  ∧ (∀ (v : Word) (s : State), s.pwr.stage = .started → s.isOn 2 = true → s.responds .clkPwr = true →
      v.getLsbD 0 = true → v.extractLsb' 8 8 = 0xA5 →
      ∃ t, exec (.pwrResetCtrl v) s = .next t ∧ t.pwr.releaseTimer = true ∧ WarmFrom 32 s t))
  ∧ (∀ s : State, eventsDelivered s → s.pins.perstHigh = false ∨ s.warmOk = false →
      exec .perstNAssert s = .next { s with pins := { s.pins with perstHigh := false, perstWait := false } })
  ∧ (∀ s : State, eventsDelivered s → s.pwr.stage ≠ .started ∨ s.isOn 2 = false →
      exec .hotReset s = .next s ∧ exec .dlDown s = .next s)
  ∧ (∀ (v : Word) (s : State), eventsDelivered s → (v.getLsbD 0 = false ∨ v.extractLsb' 8 8 ≠ 0xA5) →
    exec (.pwrResetCtrl v) s = .next s)

/-- R109, R116, R120, R137: S0 ends with PD0 on, the straps sampled and the fuse shadow loaded; the PLL locks only with
PD1 on, and then PD21 and PD22 are requested; REFCLK's return resumes start-up at S1; a domain whose needs are on
reports power good.
R121: S2 and S3 begin at the release point (the deassertion of PERST_N, or the end of the 10 µs delay), with the
straps sampled and every domain of the two stages on or requested.  While VDDIO_33 is low PERST_N counts as asserted
(R538), and its deassertion takes effect when the supply is back.
Completes (each answers a next state, by conditions on the state and the operands alone): `porDelayDone`, `pllLock`,
`refclkReturn`, `perstNDeassert`, `releasePoint`, `domainPowerGood`, `vddio33Restored`. -/
def Obligations.StartUpReachesTheReleasePoint : Prop :=
  ((∀ (straps : Straps) (s : State), s.pwr.stage = .porDelay → ∃ t, exec (.porDelayDone straps) s = .next t
      ∧ t.straps = straps ∧ t.shadow = s.fuse ∧ t.pwr.on = 1 ∧ t.pwr.wait.getLsbD 1 = true
      ∧ t.pwr.stage = (if s.pins.refclkOk then .pll else .clockFailed)
      ∧ Only (fun p => p ∈ [.pins, .straps, .shadow, .pwr, .cal] || p matches .evt _) s t)
  ∧ (∀ s : State, eventsDelivered s → s.pwr.stage = .pll → s.pwr.pllLock = false → s.isOn 1 = true → s.pins.refclkOk = true →
      s.isOn 21 = false → s.isOn 22 = false →
      exec .pllLock s = .next { s with pwr := { s.pwr with pllLock := true, wait := s.pwr.wait ||| 0x600000 } })
  ∧ (∀ s : State, eventsDelivered s → s.isOn 1 = false → exec .pllLock s = .next s)
  ∧ (∀ s : State, s.pwr.stage = .clockFailed → s.isOn 1 = false → ∃ t, exec .refclkReturn s = .next t
      ∧ t.pwr.stage = .pll ∧ t.pwr.wait.getLsbD 1 = true ∧ t.pins.refclkOk = true
      ∧ Only (fun p => p ∈ [.pins, .pwr] || p matches .evt _) s t)
  ∧ (∀ (d : Fin 24) (s : State), s.pwr.wait.getLsbD d = true → (domainNeeds d).all s.isOn = true →
      (1 < d.val → s.pwr.pllLock = true) → (d = 20 → s.img.run.map (·.op) ≠ some 4) →
      ∃ t, exec (.domainPowerGood d) s = .next t ∧ t.isOn d = true ∧ t.pwr.wait.getLsbD d = false))
  ∧ ((∀ (straps : Straps) (s : State), s.pins.perstHigh = false → s.pins.vddio33Ok = true → s.pwr.stage = .waitRelease →
      s.pwr.releaseTimer = false →
      ∃ t, exec (.perstNDeassert straps) s = .next t ∧ t.pins.perstHigh = true ∧ Released straps s t)
  ∧ (∀ (straps : Straps) (s : State), s.pins.perstHigh = true → s.pwr.stage = .waitRelease → s.pwr.releaseTimer = true →
      ∃ t, exec (.releasePoint straps) s = .next t ∧ Released straps s t)
  ∧ (∀ (straps : Straps) (s : State), s.pins.perstWait = true → s.pwr.stage = .waitRelease → s.pwr.releaseTimer = false →
      ∃ t, exec (.vddio33Restored straps) s = .next t ∧ t.pins.perstHigh = true
        ∧ t.pins.vddio33Ok = true ∧ Released straps s t)
  ∧ (∀ (straps : Straps) (s : State), s.pins.perstHigh = false → s.pins.vddio33Ok = false →
      ∃ t, exec (.perstNDeassert straps) s = .next t ∧ t.pins.perstHigh = false ∧ t.pins.perstWait = true
        ∧ t.pwr = s.pwr ∧ t.straps = s.straps))

/-- R125, R122, R120: each stage of start-up records its completion time and hands on: S3 to the loader state or to
PD20, S2 and S5 to the check for `START_DONE`.
R138: a domain that misses its time stays off, sets its fault bit and raises `PWR_DOMAIN_FAULT`; a domain of S3 (at the
end of S3, log 56) or PD20 leads start-up to the loader state.
Completes (each answers a next state, by conditions on the state and the operands alone): `domainPowerTimeout`,
`sramSweepDone`, `ltssmDetect`, `s5Complete`. -/
def Obligations.StagesAndDomainsReport : Prop :=
  ((∀ (w : Word) (s : State), eventsDelivered s → s.pwr.s3 = .running →
      (∀ d ∈ s3Domains, s.pwr.wait.getLsbD d = false) → ∃ t, exec (.sramSweepDone w) s = .next t
      ∧ t.pwr.s3 = .done ∧ t.pwr.stageT1 = w
      ∧ (s.straps.boot = true ∨ (∃ d ∈ s3Domains, s.isOn d = false) → t.img.state = .loader ∧ t.pwr.s4 = .done)
      ∧ (s.straps.boot = false → (∀ d ∈ s3Domains, s.isOn d = true) →
          t.pwr.s4 = .running ∧ (t.isOn 20 = true ∨ t.pwr.wait.getLsbD 20 = true))
      ∧ Only (fun p => p ∈ [.pwr, .img] || p matches .evt 0) s t)
  ∧ (∀ (w : Word) (s : State), s.pwr.s2 = .running → s.isOn 2 = true → ∃ t, exec (.ltssmDetect w) s = .next t
      ∧ t.pwr.s2 = .done ∧ t.pwr.stageT0 = w ∧ Only (fun p => p ∈ [.pwr] || p matches .evt _) s t)
  ∧ (∀ (w : Word) (s : State), eventsDelivered s → s.pwr.s5 = .running → s.pwr.wait &&& s.pwr.req = 0 →
      s.img.state = .applied → s.pwr.s2 = .done → s.pwr.s3 = .done → s.pwr.startDone = false →
      ∃ t, exec (.s5Complete w) s = .next t ∧ t.pwr.s5 = .done ∧ t.pwr.stageT3 = w ∧ t.pwr.startDone = true
      ∧ t.crs = false ∧ (t.crew 0).evt = (((s.crew 0).pushEvent ⟨.imgApplied, 255, 0, s.tim.ns⟩).pushEvent
          ⟨.startDone, 255, 0, s.tim.ns⟩).evt
      ∧ Only (fun p => p ∈ [.pwr, .evt 0]) s t))
  ∧ ((∀ (d : Fin 24) (s : State), s.pwr.wait.getLsbD d = true → s.isOn d = false → ∃ t, exec (.domainPowerTimeout d) s = .next t
      ∧ t.isOn d = false ∧ t.pwr.fault.getLsbD d = true ∧ t.pwr.wait.getLsbD d = false
      ∧ (d = 20 → s.img.run.map (·.op) = some 0 → t.img.state = .loader))
  ∧ (∀ (d : Fin 24) (s : State), eventsDelivered s → s.pwr.wait.getLsbD d = true → d.val ≠ 20 →
      exec (.domainPowerTimeout d) s = .next (({ s with pwr := { s.pwr with
        wait := s.pwr.wait &&& ~~~ (1#24 <<< d.val), fault := s.pwr.fault ||| (1#24 <<< d.val) } } : State).told 0
        .pwrDomainFault 255 d)))

/-! ### Power domains, supplies and functions (chapters 4, 8 and 16) -/

/-- R112, R136: a `PWR_DOMAIN_REQ` write sets or clears the request of each domain the manager may switch; PD23's bit with
the debug fuse blown keeps reading 1 and `CFG_REJECT` is raised; every other bit ignores the write; a write that would
power off a domain in use is dropped with `CFG_REJECT`.  A domain newly requested is on or waits for power good, one
given up is off.
R133: the trip parks every started line port, stops the heartbeat and leaves on only PD0, PD1, PD2, PD21 and PD22.
R538, R539, R142: while VDDIO_33 is low each line port that is not stopped acts as if its `LFAULT_N` were low; the PCIe
reference shows in `CLK_STATUS`.
Completes (each answers a next state, by conditions on the state and the operands alone): `pwrDomainReq`,
`thermalTrip`, `vddio33Low`, `pcieRefOkChange`. -/
def Obligations.DomainRequestsTripAndSupply : Prop :=
  (∀ (v : Word) (s : State), s.responds .clkPwr = true → s.pwr.tripped = false → s.pwr.pllLock = true →
    s.reqRefused v = false → ∃ t, exec (.pwrDomainReq v) s = .next t
    ∧ (∀ d, d ∈ s.reqBits → t.pwr.req.getLsbD d = (v.getLsbD d || (s.pwr.req.getLsbD d && !s.mayOff d)))
    ∧ (∀ d, d ∉ s.reqBits → t.pwr.req.getLsbD d = s.pwr.req.getLsbD d)
    ∧ (∀ d, d ∈ s.reqBits → v.getLsbD d = true → s.pwr.req.getLsbD d = false → t.isOn d = true ∨ t.pwr.wait.getLsbD d = true)
    ∧ (∀ d, d ∈ s.reqBits → v.getLsbD d = false → s.pwr.req.getLsbD d = true → s.mayOff d = true → t.isOn d = false)
    ∧ (eventsDelivered s → s.tdm.active = false →
        (∃ d ∈ s.reqBits, v.getLsbD d = false ∧ s.pwr.req.getLsbD d = true ∧ s.mayOff d = false) →
        Told s t 0 .cfgReject 255 0x020018)
    ∧ Only (fun p => p ∈ [.pwr, .tdm, .out] || p matches .trk _ || p matches .evt _) s t)
  ∧ (∀ (v : Word) (s : State), eventsDelivered s → s.responds .clkPwr = true → s.pwr.tripped = false →
      s.pwr.pllLock = true → (∃ d ∈ s.reqBits, d ≠ 23 ∧ s.pwr.req.getLsbD d = true ∧ v.getLsbD d = false
        ∧ s.mayOff d = false) → exec (.pwrDomainReq v) s = .next (s.told 0 .cfgReject 255 0x020018))
  ∧ ((∀ s : State, 4 ≤ s.cal.tripRun → s.pwr.tripped = false → s.responds .cal = true → ∃ t, exec .thermalTrip s = .next t
      ∧ t.pwr.tripped = true ∧ t.pwr.on = s.pwr.on &&& 0x600007 ∧ t.tdm.enable = false
      ∧ (∀ n : Fin 8, (t.trk n).state = .stopped ∧ ((s.trk n).started = true → .signal n .electricalIdle ∈ t.out)))
  ∧ (∀ s : State, ∃ t, exec .vddio33Low s = .next t ∧ t.pins.vddio33Ok = false
      ∧ (∀ n : Fin 8, (s.trk n).state ≠ .stopped → (t.trk n).lfault = true
          ∧ ((s.trk n).state ≠ .starting → (t.trk n).quarantined = true ∧ (t.trk n).dtxen = false)))
  ∧ (∀ (ok : Bool) (s : State), eventsDelivered s →
      exec (.pcieRefOkChange ok) s = .next { s with pwr := { s.pwr with pcieRefOk := ok } }))

/-- R115 (Table 4.3), R288: an FLR of the manager ends every crew, stops every started trunk at the next boundary,
clears VF Enable, the transfers, the channels, the arbiters and the cell queues, and gives the nodes to the manager; it
keeps the applied image, the calibration, the time, the straps and the fuses.
R286: an FLR of a VF resets its crew without host writes.  R288: clearing VF Enable tears every crew down.
Completes (each answers a next state, by conditions on the state and the operands alone): `managerReset`, `vfFlr`,
`vfEnableClear`. -/
def Obligations.FunctionResetsClearAndKeep : Prop :=
  (∀ s : State, s.pwr.stage = .started → s.crs = false → ∃ t, exec .managerReset s = .next t
    ∧ (∀ k : Fin 64, (t.crew k).st = .absent) ∧ (∀ n, (s.trk n).started = true → (t.trk n).stopReq = true)
    ∧ t.pci.vfEnable = false ∧ t.xfers = [] ∧ t.ctxs = [] ∧ t.chs = [] ∧ t.arbs = [] ∧ t.cells = {}
    ∧ (∀ i e, t.entry i = some e → e.owner = 0) ∧ t.tdm.enable = false ∧ (t.crew 0).evt.enabled = false
    ∧ t.pwr.cause = (s.pwr.cause ||| 0x40 ||| if s.pwr.tripped then 0x80 else 0) ∧ t.pci.aer = s.pci.aer ∧ t.img.applied = s.img.applied ∧ t.img.state = s.img.state ∧ t.cal = s.cal
    ∧ t.tim.ns = s.tim.ns ∧ t.straps = s.straps ∧ t.frame = s.frame
    ∧ (¬ s.blowing → t.fuse = s.fuse ∧ t.shadow = s.shadow))
  ∧ ((∀ (k : Fin 64) (s : State), k ≠ 0 → s.crs = false → s.pci.vfEnable = true → k.val ≤ s.pci.numVfs →
      (s.crew k).st = .running → s.crewQuiet k = true → ∃ t, exec (.vfFlr k) s = .next t ∧ (t.crew k).st = .running ∧ (t.crew k).bme = false
      ∧ (t.crew k).rings = [] ∧ (t.crew k).cqs = [] ∧ (t.crew k).evt.enabled = false ∧ (t.crew k).rxps = []
      ∧ (∀ i x, t.xfer i = some x → ¬ (x.crew = k ∧ x.fromRing = true)))
  ∧ (∀ s : State, s.crs = false → s.pci.vfEnable = true → ∃ t, exec .vfEnableClear s = .next t ∧ t.pci.vfEnable = false
      ∧ (∀ k : Fin 64, k ≠ 0 → (t.crew k).st = .absent ∨ (t.crew k).st = .tearingDown)))

/-- R123: until start-up allows it, a configuration request is answered with Configuration Request Retry Status and
nothing else happens.  R498 (Table 16.1): the identification words of a function that exists read as the table says.
R267, R90, R105 (Tables 8.1, 8.2): the named fields of the capabilities read as the tables say.
R545: while a function's Bus Master Enable is 0 its requests wait in their order and its event records wait in the backlog;
set again, it leaves the waiting requests in their order, and its pending messages join them.
Completes (each answers a next state, by conditions on the state and the operands alone): `busMasterEnableWrite`,
`configRequest`. -/
def Obligations.ConfigurationAndBusMasterEnable : Prop :=
  ((∀ (fn : Fin 64) (r : CfgReq) (s : State), eventsDelivered s → s.isOn 2 = true → s.crs = true →
      exec (.configRequest fn r) s = .next { s with out := s.out ++ [.cfgReply fn true 0] })
  ∧ (∀ (fn : Fin 64) (o : Nat) (w : Word) (s : State), eventsDelivered s → s.isOn 2 = true → s.crs = false →
      s.fnExists fn = true →
      (o = 0 ∧ fn = 0 ∧ w = 0x48401F6B ∨ o = 0 ∧ fn ≠ 0 ∧ w = 0xFFFFFFFF
        ∨ o = 8 ∧ w = BitVec.ofNat 32 (0x0C800000 + s.shadow.siliconRev % 256) ∨ o = 0x2C ∧ w = 0x48401F6B) →
      ∃ t, exec (.configRequest fn (.read o)) s = .next t ∧ t.out = s.out ++ [.cfgReply fn false w]
        ∧ Only (fun p => p ∈ [.out, .freeCtr]) s t)
  ∧ (∀ (fn : Fin 64) (f : CfgField) (w : Word) (s : State), eventsDelivered s → s.isOn 2 = true → s.crs = false →
      s.fnExists fn = true →
      (fn = 0 ∧ (f, w) ∈ [(.totalVfs, BitVec.ofNat 32 s.crewMax), (.initialVfs, BitVec.ofNat 32 s.crewMax), (.firstVfOffset, 1),
          (.vfStride, 1), (.vfDeviceId, 0x4841), (.pageSizes, 0x11), (.barSize 0, 0x400000), (.barSize 2, 0x10000),
          (.vfBarSize 0, 0x10000), (.capability .sriov, 1), (.timeoutDisable, 0)]
        ∨ (f, w) ∈ [(.interruptPin, 0), (.msixVectors, 32), (.classCode, 0x0C8000), (.capability .ats, 0),
          (.capability .pri, 0), (.capability .pasid, 0), (.capability .msi, 0), (.aerStatus, Tab.get 0 s.pci.aer fn)]) →
      ∃ t, exec (.configRequest fn (.show f)) s = .next t ∧ t.out = s.out ++ [.cfgReply fn false w]
        ∧ Only (fun p => p ∈ [.out, .freeCtr]) s t)
  ∧ (∀ (fn : Fin 64) (r : CfgReq) (s : State), eventsDelivered s → s.isOn 2 = true → s.crs = false → s.fnExists fn = false →
      exec (.configRequest fn r) s = .next { s with out := s.out ++ [.cfgReply fn false 0xFFFFFFFF] })
  ∧ (∀ s : State, eventsDelivered s → s.isOn 2 = true → s.crs = false →
      exec (.configRequest 0 .setVfEnable) s = .next { s with
        pci := { s.pci with vfEnable := true }, out := s.out ++ [.cfgReply 0 false 0] }))
  ∧ ((∀ (fn : Fin 64) (s : State), eventsDelivered s → s.crs = false → s.fnExists fn = true → (s.crew fn).bme = true →
      exec (.busMasterEnableWrite fn false) s = .next (s.updCrew fn (fun c => { c with bme := false, evt := c.evt.park })))
  ∧ (∀ (fn : Fin 64) (s : State), eventsDelivered s → s.crs = false → s.fnExists fn = true → (s.crew fn).bme = false →
      ∃ t l, exec (.busMasterEnableWrite fn true) s = .next t ∧ (t.crew fn).bme = true
      ∧ t.pci = { s.pci with queue := s.pci.queue ++ l } ∧ (∀ q ∈ l, q.fn = fn.val ∧ ∃ v, q.body = .msix v)
      ∧ (∀ v : Fin 32, ((s.crew fn).vec v).pba = true → ((s.crew fn).vec v).masked = false → t.pci.hasMessage fn v = true)
      ∧ Only (fun p => p ∈ [.crew fn, .pci]) s t)
  ∧ (∀ (fn : Fin 64) (on : Bool) (s : State), eventsDelivered s → (s.crew fn).bme = on →
      exec (.busMasterEnableWrite fn on) s = .next s))

/-! ### Calibration and monitors (chapter 4) -/

/-- R126, R129, R130: a user value of class I takes effect at once: the effective value is the factory value plus it,
limited to the item's range, and a limited result sets the item's `CAL_SAT` bit and raises `CAL_SATURATED`.  One of
class F waits for the frame boundary.  `clear_user` sets every user value to 0.
Completes (each answers a next state, by conditions on the state and the operands alone): `calUserWrite`, `clearUser`. -/
def Obligations.UserCalibrationTakesEffectByClass : Prop :=
  (∀ (k : Fin 21) (v : Word) (s : State), eventsDelivered s → s.responds .cal = true → k < 10 →
      v.toInt ≠ Tab.get 0 s.cal.userForce k → ∃ t, exec (.calUserWrite k v) s = .next t
      ∧ Tab.get 0 t.cal.user k = v.toInt
      ∧ Tab.get 0 t.cal.eff k = max (calRange k).1 (min (calRange k).2 (Tab.get 0 s.shadow.factory k + v.toInt))
      ∧ (Tab.get 0 t.cal.eff k ≠ Tab.get 0 s.shadow.factory k + v.toInt →
          t.cal.sat.getLsbD k = true ∧ Told s t 0 .calSaturated 255 (calItem k))
      ∧ (∀ j, j ≠ k.val → Tab.get 0 t.cal.eff j = Tab.get 0 s.cal.eff j ∧ Tab.get 0 t.cal.user j = Tab.get 0 s.cal.user j)
      ∧ Only (fun p => p ∈ [.cal, .evt 0]) s t)
  ∧ (∀ (k : Fin 21) (v : Word) (s : State), eventsDelivered s → s.responds .cal = true → 10 ≤ k →
      exec (.calUserWrite k v) s = .next { s with cal := { s.cal with user := Tab.put 0 k v.toInt s.cal.user } })
  ∧ (∀ s : State, eventsDelivered s → s.responds .cal = true → ∃ t, exec .clearUser s = .next t
      ∧ (∀ k : Fin 21, Tab.get 0 t.cal.user k = 0)
      ∧ (∀ k : Fin 21, k < 10 → Tab.get 0 s.cal.userForce k ≠ 0 →
          Tab.get 0 t.cal.eff k = max (calRange k).1 (min (calRange k).2 (Tab.get 0 s.shadow.factory k)))
      ∧ (∀ k : Fin 21, 10 ≤ k → Tab.get 0 t.cal.eff k = Tab.get 0 s.cal.eff k)
      ∧ Only (fun p => p ∈ [.cal, .evt 0]) s t)

/-- R127, R131: a monitor sample reads raw + raw × gain / 65,536 + offset in 1/16 °C, rounded toward zero, and each voltage
channel its raw value plus its offset, with the effective calibration in force; each run of samples beyond a threshold, or
back within it, grows by one to at most four, or starts again.
R132: four consecutive samples beyond a threshold enter its condition and raise its event; four back within it leave
it, and `TEMP_CLEAR` comes on leaving the last temperature condition; a voltage event carries its channel.  A condition
that has not seen its four samples does not change.
Completes (each answers a next state, by conditions on the state and the operands alone): `monitorSample`,
`monitorConditionChange`. -/
def Obligations.MonitorsReadEnterAndLeave : Prop :=
  (∀ (raw : Int) (mv : List Int) (s : State), eventsDelivered s → s.responds .cal = true →
    ∃ t, exec (.monitorSample raw mv) s = .next t
    ∧ t.cal.temp = (raw * 65536 + raw * Tab.get 0 s.cal.eff 1 + Tab.get 0 s.cal.eff 0 * 65536).tdiv 65536
    ∧ (∀ v x, s.cal.vmon[v]? = some x → ∃ y, t.cal.vmon[v]? = some y
        ∧ y.mv = mv.getD v 0 + Tab.get 0 s.cal.eff (2 + v) ∧ y.low = x.low ∧ y.high = x.high ∧ y.out = x.out
        ∧ y.outRun = (if y.mv < (x.low : Int) ∨ (x.high : Int) < y.mv then min 4 (x.outRun + 1) else 0)
        ∧ y.inRun = (if (x.low : Int) + 5 ≤ y.mv ∧ y.mv + 5 ≤ (x.high : Int) then min 4 (x.inRun + 1) else 0))
    ∧ t.cal.warnRun = (if s.cal.warnThr < t.cal.temp then min 4 (s.cal.warnRun + 1) else 0)
    ∧ t.cal.warnBack = (if t.cal.temp ≤ s.cal.warnThr - 32 then min 4 (s.cal.warnBack + 1) else 0)
    ∧ t.cal.alarmRun = (if s.cal.alarmThr < t.cal.temp then min 4 (s.cal.alarmRun + 1) else 0)
    ∧ t.cal.alarmBack = (if t.cal.temp ≤ s.cal.alarmThr - 32 then min 4 (s.cal.alarmBack + 1) else 0)
    ∧ t.cal.warn = s.cal.warn ∧ t.cal.alarm = s.cal.alarm ∧ t.cal.eff = s.cal.eff ∧ t.cal.sat = s.cal.sat
    ∧ { t.pwr with tripCool := s.pwr.tripCool } = s.pwr ∧ Only (fun p => p ∈ [.cal, .pwr]) s t)
  ∧ (∀ s : State, eventsDelivered s → s.responds .cal = true →
    (s.cal.warn = false → s.cal.warnRun = 4 → exec (.monitorConditionChange .warn) s
      = .next (({ s with cal := { s.cal with warn := true } } : State).told 0 .tempWarn 255 0))
    ∧ (s.cal.alarm = false → s.cal.alarmRun = 4 → exec (.monitorConditionChange .alarm) s
      = .next (({ s with cal := { s.cal with alarm := true } } : State).told 0 .tempAlarm 255 0))
    ∧ (s.cal.warn = true → s.cal.warnBack = 4 → exec (.monitorConditionChange .warn) s
      = .next (if s.cal.alarm then { s with cal := { s.cal with warn := false } }
          else ({ s with cal := { s.cal with warn := false } } : State).told 0 .tempClear 255 0))
    ∧ (s.cal.alarm = true → s.cal.alarmBack = 4 → exec (.monitorConditionChange .alarm) s
      = .next (if s.cal.warn then { s with cal := { s.cal with alarm := false } }
          else ({ s with cal := { s.cal with alarm := false } } : State).told 0 .tempClear 255 0))
    ∧ (∀ (v : Fin 8) (x : Vmon), s.cal.vmon[v.val]? = some x → x.out = false → x.outRun = 4 →
        exec (.monitorConditionChange (.volt v)) s = .next (({ s with cal := { s.cal with
          vmon := s.cal.vmon.set v { x with out := true } } } : State).told 0 .vmonOutOfRange 255 v))
    ∧ (∀ (v : Fin 8) (x : Vmon), s.cal.vmon[v.val]? = some x → x.out = true → x.inRun = 4 →
        exec (.monitorConditionChange (.volt v)) s = .next (({ s with cal := { s.cal with
          vmon := s.cal.vmon.set v { x with out := false } } } : State).told 0 .vmonClear 255 v))
    ∧ ((if s.cal.warn then s.cal.warnBack else s.cal.warnRun) < 4 → exec (.monitorConditionChange .warn) s = .next s)
    ∧ ((if s.cal.alarm then s.cal.alarmBack else s.cal.alarmRun) < 4 → exec (.monitorConditionChange .alarm) s = .next s)
    ∧ (∀ (v : Fin 8) (x : Vmon), s.cal.vmon[v.val]? = some x → (if x.out then x.inRun else x.outRun) < 4 →
        exec (.monitorConditionChange (.volt v)) s = .next s))

/-! ### Images (chapter 3) -/

/-- R91, R93, R95, R83, R84, R96: each IMG operation begins, when none runs and its own condition holds, with busy set
and the verifier's domain on or requested.
R96: an IMG operation written while one runs completes `BUSY`, and the running one goes on untouched.
Completes (each answers a next state, by conditions on the state and the operands alone): `pushFull`, `pushDelta`,
`imgStore`, `commitRollback`, `programKeyHash`. -/
def Obligations.ImageOperationsBeginOneAtATime : Prop :=
  (∀ s : State, eventsDelivered s → s.responds .img = true → s.img.run = none → s.pwr.tripped = false →
    (s.imgBlocked = false → s.img.state = .loader ∨ (s.crewExists = false ∧ s.allStopped = true) →
      s.img.pushLen ≤ 0x100000 → s.img.pushLen % 16 = 0 → ∃ t, exec .pushFull s = .next t ∧ ImgBegins 1 false s t)
    ∧ (s.imgBlocked = false → s.img.state = .applied → s.img.pushLen ≤ 0x100000 → s.img.pushLen % 16 = 0 →
      ∃ t, exec .pushDelta s = .next t ∧ ImgBegins 2 false s t)
    ∧ (∀ b : Bool, s.img.kept.isSome = true → s.straps.boot = false → s.img.source ≠ (if b then 2 else 1) →
      ∃ t, exec (.imgStore b) s = .next t ∧ ImgBegins 3 b s t)
    ∧ (s.img.applied.isSome = true → ∃ t, exec .commitRollback s = .next t ∧ ImgBegins 4 false s t)
    ∧ (s.img.state = .loader → s.shadow.keyHash = none → ∃ t, exec .programKeyHash s = .next t ∧ ImgBegins 5 false s t))
  ∧ (∀ s : State, eventsDelivered s → s.responds .img = true → s.img.run ≠ none →
    ∀ c op, (c, op) ∈ [(.pushFull, 1), (.pushDelta, 2), (.imgStore true, 3), (.imgStore false, 3), (.commitRollback, 4),
        (.programKeyHash, 5)] →
      exec c s = .next { s with img := { s.img with reason := imBusy, lastOp := op } })

/-- R81, R92, R99, R100: a push that passes every check is applied at one instant; one that fails a check completes with
the code of the first that failed, changes nothing of the image in force and raises `IMG_PUSH_REJECTED`.
R93, R94: a delta that passes replaces the image with one crew section changed, told with its crew.
R86, R87, R100: a flash slot that passes is applied and S5 begins; one that fails leaves its reason, and the other
slot is tried, or the loader state is entered.  R81, R82: a slot is refused while no key hash is fused, whatever it
holds, and then for its magic.
Completes (each answers a next state, by conditions on the state and the operands alone): `imageVerifyDone`. -/
def Obligations.ImagesAreAppliedOrRejected : Prop :=
  ((∀ (b : List Byte) (w : Word) (r : ImgRun) (im : Image) (s : State), s.img.run = some r → r.phase = .checking → r.op = 1 →
      verifyImage s 1 s.img.pushLen r.bytes = ⟨imNone, some im, none⟩ → s.pushOk = true →
      ∃ t, exec (.imageVerifyDone b w) s = .next t ∧ t.img.applied = some im ∧ t.img.state = .applied ∧ t.img.source = 3
      ∧ t.img.busy = false ∧ t.img.reason = imNone ∧ t.img.run = none
      ∧ (∀ n : Fin 8, (t.trk n).rate = (im.trunk n).rate ∧ (t.trk n).rateEff = (im.trunk n).rate)
      ∧ (∀ c, (t.ctx c).used = true → (t.ctx c).channel = none) ∧ t.chs = [])
  ∧ (∀ (b : List Byte) (w : Word) (r : ImgRun) (v : Verdict) (s : State), eventsDelivered s → s.img.run = some r →
      r.phase = .checking → r.op = 1 ∨ r.op = 2 → verifyImage s r.op s.img.pushLen r.bytes = v → v.image = none →
      v.reason ≠ imBpUnsupported →
      ∃ t, exec (.imageVerifyDone b w) s = .next t ∧ t.img.busy = false ∧ t.img.reason = v.reason ∧ t.img.run = none
      ∧ t.img.applied = s.img.applied ∧ t.img.state = s.img.state
      ∧ Told s t 0 .imgPushRejected 255 (pairDetail r.op v.reason))
  ∧ (∀ (b : List Byte) (w : Word) (r : ImgRun) (im : Image) (n : Nat) (s : State), eventsDelivered s → s.img.run = some r →
      r.phase = .checking → r.op = 2 → verifyImage s 2 s.img.pushLen r.bytes = ⟨imNone, some im, some n⟩ →
      ∃ t, exec (.imageVerifyDone b w) s = .next t ∧ t.img.applied = some im ∧ t.img.busy = false ∧ t.img.reason = imNone
      ∧ t.img.run = none ∧ t.img.state = s.img.state ∧ Told s t 0 .imgCrewReloaded 255 n))
  ∧ ((∀ (b : List Byte) (w : Word) (r : ImgRun) (im : Image) (s : State), s.img.run = some r → r.phase = .checking → r.op = 0 →
      verifyImage s 1 0x100000 b = ⟨imNone, some im, none⟩ →
      ∃ t, exec (.imageVerifyDone b w) s = .next t ∧ t.img.applied = some im ∧ t.img.state = .applied
      ∧ t.img.source = (if r.slotB then 2 else 1) ∧ t.pwr.s4 = .done ∧ t.pwr.stageT2 = w ∧ t.pwr.s5 = .running)
  ∧ (∀ (b : List Byte) (w : Word) (r : ImgRun) (s : State), s.img.run = some r → r.phase = .checking → r.op = 0 →
      (verifyImage s 1 0x100000 b).image = none →
      ∃ t, exec (.imageVerifyDone b w) s = .next t ∧ t.img.applied = s.img.applied
      ∧ (if r.slotB then t.img.slotBReason else t.img.slotAReason) = (verifyImage s 1 0x100000 b).reason
      ∧ (r.triedOther = true → t.img.state = .loader ∧ t.img.run = none)
      ∧ (r.triedOther = false → t.img.run = some { r with slotB := !r.slotB, triedOther := true }))
  ∧ (∀ (kind avail : Nat) (b : List Byte) (s : State),
      (s.shadow.keyHash = none → verifyImage s kind avail b = ⟨imKeyUnprogrammed, none, none⟩)
      ∧ (s.shadow.keyHash ≠ none → leAt b 0 4 ≠ 0x54414C46 → verifyImage s kind avail b = ⟨imBadMagic, none, none⟩)))

/-- R95: a store erases the slot block by block, asks for the push buffer once the sixteenth is erased, and programs it page by
page; it reads the slot back and ends with `IMG_STORE_DONE` where it matches; a failed one erases the first block and ends
with `IMG_STORE_FAILED` and its reason.
R83, R84, R116: a commit raises the fused anti-rollback level to the applied image's, a key programming writes the
staged hash; the shadow follows in the same cycle.
Completes (each answers a next state, by conditions on the state and the operands alone): `flashStatusReady`,
`fuseBlowDone`. -/
def Obligations.StoresAndFusesAreWritten : Prop :=
  ((∀ (b : List Byte) (r : ImgRun) (s : State), eventsDelivered s → s.img.run = some r → r.op = 3 → r.phase = .header →
      b.take r.data.length = r.data →
      ∃ t, exec (.flashStatusReady b) s = .next t ∧ t.img.run = none ∧ t.img.busy = false ∧ t.img.reason = imNone
      ∧ t.out = s.out ++ [modeRead s.img.keptRead r.slotB 0 s.img.keptLen] ∧ Told s t 0 .imgStoreDone 255 (if r.slotB then 1 else 0))
  ∧ (∀ (b : List Byte) (r : ImgRun) (s : State), eventsDelivered s → s.img.run = some r → r.op = 3 → r.phase = .eraseBad →
      r.result < 256 →
      ∃ t, exec (.flashStatusReady b) s = .next t ∧ t.img.run = none ∧ t.img.busy = false ∧ t.img.reason = r.result
      ∧ Told s t 0 .imgStoreFailed 255 ((if r.slotB then 1 else 0) + r.result * 256))
  ∧ (∀ (b : List Byte) (r : ImgRun) (s : State), eventsDelivered s → s.img.run = some r → r.op = 3 → r.phase = .header →
      b.take r.data.length ≠ r.data →
      ∃ t, exec (.flashStatusReady b) s = .next t ∧ t.img.run = some { r with phase := .eraseBad, result := imFlashVerify }
      ∧ t.out = s.out ++ [modeRead s.img.keptRead r.slotB 0 s.img.keptLen,
          .flash (.erase (if flash4B s.img.keptRead then 0xDC else 0xD8) (flashAddr s.img.keptRead) (flashMhz s.img.keptRead)
            (slotBase r.slotB)),
          .flash (.status 0x05 (flashMhz s.img.keptRead))])
  ∧ (∀ (b : List Byte) (r : ImgRun) (s : State), eventsDelivered s → s.img.run = some r → r.op = 3 → r.phase = .erasing →
      (r.pos < 15 → ∃ t, exec (.flashStatusReady b) s = .next t ∧ t.img.run = some { r with pos := r.pos + 1 }
        ∧ t.out = s.out ++ [.flash (.erase (if flash4B s.img.keptRead then 0xDC else 0xD8) (flashAddr s.img.keptRead)
            (flashMhz s.img.keptRead) (slotBase r.slotB + 0x10000 * (r.pos + 1))),
            .flash (.status 0x05 (flashMhz s.img.keptRead))] ∧ Only (fun p => p ∈ [.img, .out]) s t)
      ∧ (15 ≤ r.pos → ∃ t x, exec (.flashStatusReady b) s = .next t ∧ t.img.run = some { r with phase := .reading }
        ∧ t.pci = { s.pci with queue := s.pci.queue ++ [⟨34, 0, .read x⟩] } ∧ x.addr = s.img.pushBase ∧ x.use = .store
        ∧ Only (fun p => p ∈ [.img, .pci]) s t))
  ∧ (∀ (b : List Byte) (r : ImgRun) (s : State), eventsDelivered s → s.img.run = some r → r.op = 3 →
      r.phase = .programming → r.pos + 0x100 < s.img.keptLen →
      ∃ t, exec (.flashStatusReady b) s = .next t ∧ t.img.run = some { r with pos := r.pos + 0x100 }
      ∧ t.out = s.out ++ [.flash (.program (if flash4B s.img.keptRead then 0x12 else 0x02) (flashAddr s.img.keptRead)
          (flashMhz s.img.keptRead) (slotBase r.slotB + (r.pos + 0x100)) (slice r.data (r.pos + 0x100) 0x100)),
          .flash (.status 0x05 (flashMhz s.img.keptRead))] ∧ Only (fun p => p ∈ [.img, .out]) s t))
  ∧ ((∀ (r : ImgRun) (im : Image) (s : State), eventsDelivered s → s.img.run = some r → r.phase = .blowing → r.op = 4 →
      s.img.applied = some im → ∃ t, exec .fuseBlowDone s = .next t
      ∧ t.fuse = { s.fuse with rollback := max s.fuse.rollback im.hdr.rollback }
      ∧ t.shadow = { s.shadow with rollback := max s.fuse.rollback im.hdr.rollback }
      ∧ t.img.busy = false ∧ t.img.reason = imNone ∧ t.img.applied = some im
      ∧ Told s t 0 .imgRollbackCommitted 255 (max s.fuse.rollback im.hdr.rollback))
  ∧ (∀ (r : ImgRun) (s : State), eventsDelivered s → s.img.run = some r → r.phase = .blowing → r.op = 5 →
      ∃ t, exec .fuseBlowDone s = .next t ∧ (∃ k, t.fuse = { s.fuse with keyHash := some k } ∧ t.shadow.keyHash = some k
        ∧ k.length = 32 ∧ (∀ w : Fin 8, leAt k (4 * w.val) 4 = (Tab.get 0 s.img.keyStage w).toNat))
      ∧ t.img.busy = false ∧ t.img.reason = imNone ∧ Told s t 0 .imgKeyProgrammed 255 0))



/-! ### Line ports (chapters 5 and 14) -/

/-- R177: a start raises LPWR and takes the written rate, and makes a bow whose pair has been silent active (R474); the check
of `LFAULT_N` then starts the port (a pair-fed one is claimed at the next boundary, R452), parks it (a standby's pair-fed
port, R178), or ends in `LINE_FAULT` with LPWR off.
R179, R193: a stop of a quiesced trunk waits for the boundary, one of a trunk that is not quiesced is dropped with
`CFG_REJECT`; clr_stat clears the four line counters and nothing else.
Completes (each answers a next state, by conditions on the state and the operands alone): `trkStart`,
`linePowerCheck`, `trkStop`, `trkClrStat`. -/
def Obligations.TrunksStartAndStop : Prop :=
  ((∀ (n : Fin 8) (s : State), eventsDelivered s → s.responds (.trk n) = true → s.exists? n = true →
      (s.trk n).state = .stopped → s.firstStart n = false →
      exec (.trkStart n) s = .next (s.updTrk n (fun t => { t with
        state := .starting, startWait := true, lpwr := true, rateEff := t.rate, polTold := false, polInv := false, stopReq := false })))
  ∧ (∀ (n : Fin 8) (s : State), eventsDelivered s → (s.trk n).startWait = true → s.pins.vddio33Ok = true →
      (s.pairFed n = false → ∃ t, exec (.linePowerCheck n true) s = .next t ∧ (t.trk n).state = .running
        ∧ (t.trk n).urxen = true ∧ (t.trk n).dtxen = true ∧ (t.trk n).lfault = false ∧ t.out = s.out ++ [.signal n .idle]
        ∧ Told s t 0 .lineStarted n 0 ∧ Only (fun p => p ∈ [.trk n, .out, .evt 0]) s t)
      ∧ (s.pairFed n = true → s.tdm.active = false → ∃ t, exec (.linePowerCheck n true) s = .next t
        ∧ (t.trk n).state = .parked ∧ (t.trk n).urxen = true ∧ (t.trk n).dtxen = false ∧ t.out = s.out
        ∧ Told s t 0 .lineStarted n 0 ∧ Only (fun p => p ∈ [.trk n, .evt 0]) s t))
  ∧ (∀ (n : Fin 8) (s : State), eventsDelivered s → (s.trk n).startWait = true →
      exec (.linePowerCheck n false) s = .next ((s.updTrk n (fun t =>
        { t with startWait := false, state := .stopped, lpwr := false, lfault := true })).told 0 .lineFault n 0))
  ∧ (∀ (n : Fin 8) (s : State), eventsDelivered s → (s.trk n).startWait = true → s.pins.vddio33Ok = true →
      s.pairFed n = true → s.tdm.active = true → ∃ t, exec (.linePowerCheck n true) s = .next t
        ∧ (t.trk n).state = .running ∧ (t.trk n).claimAt = some (s.frame + 1) ∧ (t.trk n).dtxen = !s.gated
        ∧ t.out = s.out ++ [.signal n .idle] ∧ Told s t 0 .lineStarted n 0
        ∧ Only (fun p => p ∈ [.trk n, .out, .evt 0]) s t)
  ∧ (∀ (n : Fin 8) (s : State), eventsDelivered s → s.responds (.trk n) = true → s.exists? n = true →
      (s.trk n).state = .stopped → s.firstStart n = true →
      ∃ t, exec (.trkStart n) s = .next t ∧ (t.trk n).state = .starting ∧ (t.trk n).lpwr = true
      ∧ (s.tdm.epochValid = true → t.tdm = { s.tdm with active := true, fenceOut := true, fenceHold := true })
      ∧ (s.tdm.epochValid = false → t.tdm = s.tdm ∧ Told s t 0 .cfgReject 255 (0x40000 + n.val * 0x1000 + 4))
      ∧ Only (fun p => p ∈ [.trk n, .tdm, .evt 0]) s t))
  ∧ ((∀ (n : Fin 8) (s : State), eventsDelivered s → s.responds (.trk n) = true → (s.trk n).state ≠ .stopped →
      exec (.trkStop n) s = .next (if (s.trk n).quiesced then s.updTrk n (fun t => { t with stopReq := true })
        else s.told 0 .cfgReject 255 (0x40000 + n.val * 0x1000 + 4)))
  ∧ (∀ (n : Fin 8) (s : State), eventsDelivered s → s.responds (.trk n) = true →
      exec (.trkClrStat n) s = .next (s.updTrk n (fun t =>
        { t with crcErr := 0, framingErr := 0, timeouts := 0, resyncs := 0 }))))

/-- R181, R182, Table 5.13: a rate change is taken from a quiesced running trunk whose written rate differs, and not from
a standby's pair-fed one; IDLE resumes after the electrical idle, the driver enabled again where this unit drives the
trunk (R149); a confirmation that ends without every hub, after three tries or 16 frames, quarantines the trunk at the
first hub, or prunes beyond the last hub that confirmed.
Completes (each answers a next state, by conditions on the state and the operands alone): `trkRateChg`,
`rateIdleResume`, `rateConfirmTimeout`. -/
def Obligations.RateChangeRunsItsSteps : Prop :=
  (∀ (n : Fin 8) (s : State), eventsDelivered s → s.responds (.trk n) = true → (s.pairFed n = true → s.tdm.active = true) →
      (s.trk n).rate ≠ (s.trk n).rateEff → (s.trk n).state = .running → (s.trk n).quiesced = true →
      (s.trk n).quarantined = false →
      exec (.trkRateChg n) s = .next (s.updTrk n (fun t => { t with rateReq := true })))
  ∧ (∀ (n : Fin 8) (s : State), eventsDelivered s → s.responds (.trk n) = true → s.pairFed n = true → s.tdm.active = false →
      exec (.trkRateChg n) s = .next (s.told 0 .cfgReject 255 (0x40000 + n.val * 0x1000 + 4)))
  ∧ (∀ (n : Fin 8) (c : RateChg) (s : State), eventsDelivered s → (s.trk n).rateChg = some c → c.electricalIdle = true →
      c.resumed = false → exec (.rateIdleResume n) s = .next { s.updTrk n (fun t =>
        { t with dtxen := s.mayDrive n, rateChg := some { c with resumed := true } }) with
          out := s.out ++ [.signal n .idle] })
  ∧ (∀ (n : Fin 8) (c : RateChg) (s : State), (s.trk n).rateChg = some c → c.resumed = true → c.done = false →
      3 ≤ c.tries ∨ c.start + 16 ≤ s.frame →
      ∃ t, exec (.rateConfirmTimeout n) s = .next t
      ∧ (c.hop ≤ 1 → (t.trk n).quarantined = true)
      ∧ (2 ≤ c.hop → (s.trk n).quarantined = false → ((t.trk n).hub (s.hubAt n (c.hop - 1))).pruned = true
          ∧ (t.trk n).rateEff = (s.trk n).rate ∧ (t.trk n).quarantined = false)
      ∧ t.tdm = s.tdm ∧ t.frame = s.frame ∧ t.img = s.img)

/-- R190, R146, R183, R473: losing and finding lock.
R191: a low `LFAULT_N` sets the flag; a port that is not stopped or starting loses its driver, saturates its trunk
counter and quarantines the trunk.  When it recovers the flag clears, and a quarantined trunk is driven with IDLE again by
the unit that drives it (R29).
Completes (each answers a next state, by conditions on the state and the operands alone): `lineLockLost`, `lineLock`,
`lineFault`, `lfaultRecovered`. -/
def Obligations.LockAndLineFaults : Prop :=
  ((∀ (n : Fin 8) (s : State), eventsDelivered s → (s.trk n).lock = true →
      ((s.trk n).state = .running → exec (.lineLockLost n) s = .next ((s.updTrk n (fun t =>
        { t with lock := false, tailLock := false })).told 0 .lineLockLost n 0))
      ∧ ((s.trk n).state = .parked → exec (.lineLockLost n) s = .next (((s.updTrk n (fun t =>
        { t with lock := false, tailLock := false, tryRate := some 0 })).told 0 .lineLockLost n 0).told 0 .tdmTailDown n 0)))
  ∧ (∀ (n : Fin 8) (inv : Bool) (s : State), eventsDelivered s → (s.trk n).urxen = true → (s.trk n).state ≠ .parked →
      ∃ t, exec (.lineLock n inv) s = .next t ∧ (t.trk n).lock = true ∧ (t.trk n).polInv = inv
      ∧ (t.trk n).rateEff = (s.trk n).rateEff ∧ (t.trk n).rate = (s.trk n).rate
      ∧ (inv = true → (s.trk n).polTold = false → Told s t 0 .linePolarityInverted n 0)
      ∧ (inv = false ∨ (s.trk n).polTold = true → (t.crew 0).evt = (s.crew 0).evt)
      ∧ Only (fun p => p ∈ [.trk n, .evt 0]) s t)
  ∧ (∀ (n : Fin 8) (inv : Bool) (r : Nat) (s : State), eventsDelivered s → (s.trk n).urxen = true →
      (s.trk n).state = .parked → (s.trk n).tryRate = some r →
      ∃ t, exec (.lineLock n inv) s = .next t ∧ (t.trk n).lock = true ∧ (t.trk n).tailLock = true
      ∧ (t.trk n).rateEff = r ∧ (t.trk n).tryRate = none ∧ Only (fun p => p ∈ [.trk n, .evt 0]) s t))
  ∧ ((∀ (n : Fin 8) (s : State), (s.trk n).state ≠ .stopped → (s.trk n).state ≠ .starting → ∃ t, exec (.lineFault n) s = .next t
      ∧ (t.trk n).lfault = true ∧ (t.trk n).dtxen = false ∧ (t.trk n).quarantined = true ∧ (t.trk n).tec = 255
      ∧ t.frame = s.frame ∧ t.tdm = s.tdm ∧ t.tim = s.tim ∧ t.img = s.img)
  ∧ (∀ (n : Fin 8) (s : State), eventsDelivered s → (s.trk n).state = .stopped ∨ (s.trk n).state = .starting →
      exec (.lineFault n) s = .next (s.updTrk n (fun t => { t with lfault := true })))
  ∧ (∀ (n : Fin 8) (s : State), eventsDelivered s → (s.trk n).lfault = true → s.pins.vddio33Ok = true →
      ∃ t, exec (.lfaultRecovered n) s = .next t ∧ (t.trk n).lfault = false
      ∧ (if (s.trk n).quarantined = true ∧ s.mayDrive n = true then
          (t.trk n).dtxen = true ∧ t.out = s.out ++ [.signal n .idle]
         else (t.trk n).dtxen = (s.trk n).dtxen ∧ t.out = s.out)
      ∧ Only (fun p => p ∈ [.trk n, .out]) s t))

/-- R441, R451, R183: a good SOF at a parked pair-fed port records its hop field, counts a run of equal positions, and
gives a newer epoch; a parked port follows the LRATE repeated to it, and tries the three rates in turn.
Completes (each answers a next state, by conditions on the state and the operands alone): `parkedPortSof`,
`parkedPortLrate`, `parkedPortRateTryExpiry`. -/
def Obligations.ParkedPortsFollowTheActiveUnit : Prop :=
  (∀ (n : Fin 8) (hop epoch : Nat) (s : State), eventsDelivered s → (s.trk n).state = .parked → s.pairFed n = true →
      ∃ t, exec (.parkedPortSof n hop epoch) s = .next t ∧ (t.trk n).parkedHop = hop % 128
      ∧ (1 ≤ hop → hop ≤ 64 → (t.trk n).tailCand = hop
          ∧ (t.trk n).tailRun = (if (s.trk n).tailCand = hop then (s.trk n).tailRun + 1 else 1)
          ∧ (3 ≤ (t.trk n).tailRun → (t.trk n).tailN = hop))
      ∧ (s.tdm.epochValid = false ∨ (1 ≤ (epoch + 256 - s.tdm.epoch % 256) % 256
            ∧ (epoch + 256 - s.tdm.epoch % 256) % 256 ≤ 127) →
          t.tdm = { s.tdm with epoch := epoch % 256, epochValid := true })
      ∧ (s.tdm.epochValid = true → (epoch + 256 - s.tdm.epoch % 256) % 256 = 0
            ∨ 127 < (epoch + 256 - s.tdm.epoch % 256) % 256 → t.tdm = s.tdm)
      ∧ Only (fun p => p ∈ [.trk n, .tdm, .evt 0] || p matches .ctx _) s t)
  ∧ (∀ (n : Fin 8) (r : Nat) (s : State), eventsDelivered s → (s.trk n).state = .parked → r < 3 →
      exec (.parkedPortLrate n r) s = .next (s.updTrk n (fun t => { t with rateEff := r, rate := r })))
  ∧ (∀ (n : Fin 8) (r : Nat) (s : State), eventsDelivered s → (s.trk n).tryRate = some r →
      exec (.parkedPortRateTryExpiry n) s = .next (s.updTrk n (fun t => { t with tryRate := some ((r + 1) % 3) })))

/-! ### Attach, the roster and sleep (chapter 6) -/

/-- R207, R208: the first waiting record that may be handled is taken; its port is enabled, at once for the line port
before the head anchor, else by a control transfer to the hub.
Completes (each answers a next state, by conditions on the state and the operands alone): `attachStart`,
`headAnchorAttach`. -/
def Obligations.AttachTakesTheFirstRecord : Prop :=
  (∀ (n : Fin 8) (port : Nat) (s : State), eventsDelivered s → (s.trk n).state = .running → (s.trk n).quarantined = false →
      (s.trk n).attach = none → (s.trk n).attachQ.find? (s.attachable n) = some (0, port) →
      1 ≤ (s.behind n 0 port).1 → (s.behind n 0 port).1 ≤ 64 →
      (∀ i e, s.entryAt n (s.behind n 0 port).1 (s.behind n 0 port).2 = some (i, e) → e.attached = false) →
      ∃ t, exec (.attachStart n) s = .next t ∧ t.trk n = { s.trk n with
        attachQ := (s.trk n).attachQ.filter (· ≠ (0, port)), attach := some { hub := 0, port := port, result := some stOk } }
      ∧ Only (fun p => p ∈ [.trk n]) s t)
  ∧ (∀ (n : Fin 8) (h port i j : Nat) (e : Entry) (s : State), eventsDelivered s → (s.trk n).state = .running →
      (s.trk n).quarantined = false → (s.trk n).attach = none →
      (s.trk n).attachQ.find? (s.attachable n) = some (h, port) → 1 ≤ h → 1 ≤ (s.behind n h port).1 →
      (s.behind n h port).1 ≤ 64 → s.entryAt n (s.behind n h port).1 (s.behind n h port).2 = none →
      s.entryAt n h 0 = some (i, e) → Keyed.lowestFree s.xfers 1024 4096 = some j →
      ∃ t, exec (.attachStart n) s = .next t ∧ (t.trk n).attach = some { hub := h, port := port }
      ∧ (t.trk n).attachQ = (s.trk n).attachQ.filter (· ≠ (h, port))
      ∧ (∃ x, t.xfer j = some x ∧ x.origin = .ctl (.attach n) ∧ x.addr = e.addr ∧ x.trunk = n.val ∧ x.op = .control
          ∧ x.setup = [0x01, 0x20] ++ leBytes 2 port ++ [0, 0, 0, 0])
      ∧ Only (fun p => p ∈ [.trk n, .xfers, .seq]) s t)
  ∧ (∀ (n : Fin 8) (s : State), eventsDelivered s → (s.trk n).state = .running → (s.trk n).quarantined = false →
      ∃ t, exec (.headAnchorAttach n) s = .next t ∧ t.trk n = { s.trk n with
        headIdle := false, part := if (s.trk n).headIdle then 3 else (s.trk n).part,
        again := (s.trk n).again.filter (fun x => !(x.1 == 0 && x.2.1 == 16)),
        attachQ := if (s.trk n).attachQ.contains (0, 16) then (s.trk n).attachQ else (s.trk n).attachQ ++ [(0, 16)] }
      ∧ Only (fun p => p ∈ [.trk n]) s t)

/-- R208, R210: a step that ends well goes on to the next request of Table 6.5, at address 0 until the node has its own; a
step that fails is tried again, three times in all, and then the attach is given up with `NODE_ATTACH_FAILED`.  The
model's choices: nothing goes to address 0 while a hub has a port request to act on, and an attach that is given up takes
back the entry it made or its node's attached flag (log 54).
Completes (each answers a next state, by conditions on the state and the operands alone): `attachStepDone`,
`nodeAttachFailed`. -/
def Obligations.AttachGoesStepByStep : Prop :=
  (∀ (n : Fin 8) (a : Attach) (j : Nat) (s : State), eventsDelivered s → (s.trk n).attach = some a → a.failed = false →
      a.retryNext = false → a.result = some stOk → a.step = 0 ∨ a.step = 1 → (a.step = 0 → (s.trk n).unacted = []) →
      Keyed.lowestFree s.xfers 1024 4096 = some j →
      ∃ t, exec (.attachStepDone n) s = .next t ∧ (t.trk n).attach = some { a with step := a.step + 1, result := none }
      ∧ (∃ x, t.xfer j = some x ∧ x.origin = .ctl (.attach n) ∧ x.addr = 0 ∧ x.trunk = n.val
          ∧ x.setup = [if a.step = 0 then 0x01 else 0x02, 0x80, 0, 0, 0, 0, if a.step = 0 then 32 else 64, 0])
      ∧ Only (fun p => p ∈ [.trk n, .xfers, .seq]) s t)
  ∧ (∀ (n : Fin 8) (a : Attach) (s : State), eventsDelivered s → (s.trk n).attach = some a → a.failed = false →
      a.retryNext = false → a.result = some stOk → a.step = 0 → (s.trk n).unacted ≠ [] → exec (.attachStepDone n) s = .next s)
  ∧ (∀ (n : Fin 8) (a : Attach) (st : Nat) (s : State), eventsDelivered s → (s.trk n).attach = some a → a.failed = false →
      a.retryNext = false → a.result = some st → isSuccess st = false →
      exec (.attachStepDone n) s = .next (s.updTrk n (fun t => { t with attach := some { a with
        tries := a.tries + 1, result := none, failed := decide (3 ≤ a.tries + 1), retryNext := decide (a.tries + 1 < 3),
        lastFail := st } })))
  ∧ (∀ (n : Fin 8) (a : Attach) (i : Nat) (e : Entry) (s : State), (s.trk n).attach = some a → a.failed = false →
      a.retryNext = false → a.result = some stOk → a.step = 3 → a.entry = some i → s.entry i = some e →
      ∃ t, exec (.attachStepDone n) s = .next t ∧ ∃ f, t.entry i = some f ∧ f.attached = true ∧ f.addr = e.addr
        ∧ f.trunk = e.trunk ∧ f.hub = e.hub ∧ f.port = e.port ∧ f.identity = e.identity)
  ∧ (∀ (n : Fin 8) (a : Attach) (s : State), eventsDelivered s → (s.trk n).attach = some a → a.failed = true → a.entry = none →
      (∀ r, s.ros.run = some r → r.status = none) → ∃ t, exec (.nodeAttachFailed n) s = .next t ∧ (t.trk n).attach = none
      ∧ Told s t 0 .nodeAttachFailed n (pairDetail (s.behind n a.hub a.port).1 (s.behind n a.hub a.port).2)
      ∧ Only (fun p => p ∈ [.trk n, .xfers, .seq, .ros, .evt 0]) s t)
  ∧ (∀ (n : Fin 8) (a : Attach) (i : Nat) (e : Entry) (s : State), (s.trk n).attach = some a → a.failed = true →
      a.entry = some i → s.entry i = some e → ∃ t, exec (.nodeAttachFailed n) s = .next t ∧ (t.trk n).attach = none
      ∧ (a.isNew = true → t.entry i = none)
      ∧ (a.isNew = false → ∃ f, t.entry i = some f ∧ f.attached = false ∧ f.addr = e.addr ∧ f.identity = e.identity))

/-- R213: adopt gives the entry the identity of the node that was held and keeps the rest; accept new also takes its
configuration and wake flag back and frees its contexts; both queue its port to be attached; reject frees the slot alone.
R226: delete frees an entry that is neither attached nor held, and the contexts of its node; any roster command
while one runs is dropped with `CFG_REJECT`.
Completes (each answers a next state, by conditions on the state and the operands alone): `rosAdopt`, `rosAcceptNew`,
`rosReject`, `rosDelete`. -/
def Obligations.HeldSlotsAndRosterDelete : Prop :=
  ((∀ (slot : Nat) (h : Held) (e : Entry) (s : State), eventsDelivered s → s.responds .ros = true → s.ros.busy = false →
      slot < 4096 → Keyed.find s.ros.held slot = some h → s.entry h.entry = some e → h.port ≠ 0 →
      ∃ t, exec (.rosAdopt slot) s = .next t ∧ Keyed.find t.ros.held slot = none
      ∧ t.entry h.entry = some { e with identity := h.identity } ∧ t.ros.busy = true
      ∧ t.ros.run = some { op := 1, trunk := h.trunk, hub := h.hub, port := h.port }
      ∧ (h.hub, h.port) ∈ (t.trk h.trunk).attachQ ∧ Only (fun p => p ∈ [.ros, .trk h.trunk]) s t)
  ∧ (∀ (slot : Nat) (h : Held) (e : Entry) (s : State), s.responds .ros = true → s.ros.busy = false →
      slot < 4096 → Keyed.find s.ros.held slot = some h → s.entry h.entry = some e → h.port ≠ 0 →
      ∃ t, exec (.rosAcceptNew slot) s = .next t ∧ Keyed.find t.ros.held slot = none
      ∧ t.entry h.entry = some { e with identity := h.identity, configValid := false, wake := false }
      ∧ t.ros.run = some { op := 2, trunk := h.trunk, hub := h.hub, port := h.port }
      ∧ (h.hub, h.port) ∈ (t.trk h.trunk).attachQ
      ∧ (∀ c, (s.ctx c).used = true → (s.ctx c).trunk = e.trunk → (s.ctx c).addr = e.addr → (t.ctx c).used = false))
  ∧ (∀ (slot : Nat) (h : Held) (s : State), eventsDelivered s → s.responds .ros = true → s.ros.busy = false →
      slot < 4096 → Keyed.find s.ros.held slot = some h →
      exec (.rosReject slot) s = .next { s with ros := { s.ros with
        held := Keyed.erase slot s.ros.held, busy := false, status := stOk, lastOp := 3, run := none } }))
  ∧ ((∀ (i : Nat) (e : Entry) (s : State), s.responds .ros = true → s.ros.busy = false → i < 4096 → s.entry i = some e →
      e.attached = false → (s.ros.held.any (fun h => h.2.entry == i)) = false →
      ∃ t, exec (.rosDelete i) s = .next t ∧ t.entry i = none ∧ (∀ j, j ≠ i → t.entry j = s.entry j)
      ∧ t.ros.busy = false ∧ t.ros.status = stOk ∧ t.ros.lastOp = 4
      ∧ (∀ c, (s.ctx c).used = true → (s.ctx c).trunk = e.trunk → (s.ctx c).addr = e.addr → (t.ctx c).used = false))
  ∧ (∀ (c : Instr) (s : State), eventsDelivered s → s.responds .ros = true → s.ros.busy = true →
      (∀ r, s.ros.run = some r → r.status = none) →
      (∃ i n h p, c ∈ [.rosAdopt i, .rosAcceptNew i, .rosReject i, .rosDelete i, .rosSuspend n h p, .rosResume n h p,
        .rosResetPort n h p]) →
      exec c s = .next (s.told 0 .cfgReject 255 0x080010)))

/-- R216, R217, R223, R202: a suspend of the trunk is accepted at once and one of a hub's port asks the hub; a resume of
a sleeping trunk starts at the next frame; a port reset asks the hub.
R219, R223: a WAKE in the eve window cancels the suspend, which completes `SUSPEND_ABORTED`; once asleep, four wake
sets begin the resume and fewer do nothing; the resume signal ends with IDLE where this unit drives the trunk.
Completes (each answers a next state, by conditions on the state and the operands alone): `rxWake`, `resumeSignalEnd`,
`rosSuspend`, `rosResume`, `rosResetPort`. -/
def Obligations.SleepStartsAndWakes : Prop :=
  ((∀ (n : Fin 8) (s : State), eventsDelivered s → s.responds .ros = true → s.ros.busy = false →
      s.scopeBusy n 0 16 = false → s.scopeCut n 0 16 = false →
      exec (.rosSuspend n 0 16) s = .next ({ s with ros := { s.ros with
        busy := true, run := some { op := 5, trunk := n, hub := 0, port := 16 } } }.updTrk n (fun t => { t with sleep := .eve s.frame })))
  ∧ (∀ (n : Fin 8) (h p i j : Nat) (e : Entry) (s : State), eventsDelivered s → s.responds .ros = true →
      s.ros.busy = false → 1 ≤ h → h ≤ 64 → 1 ≤ p → p ≤ 16 → s.scopeBusy n h p = false → s.scopeCut n h p = false →
      s.entryAt n h 0 = some (i, e) → Keyed.lowestFree s.xfers 1024 4096 = some j →
      ∃ t, exec (.rosSuspend n h p) s = .next t ∧ t.scope n h p = .asked false ∧ t.ros.busy = true
      ∧ (∃ x, t.xfer j = some x ∧ x.origin = .ctl .rosCmd ∧ x.addr = e.addr
          ∧ x.setup = [0x03, 0x20] ++ leBytes 2 p ++ [0, 0, 0, 0])
      ∧ Only (fun q => q ∈ [.trk n, .ros, .xfers, .seq]) s t)
  ∧ (∀ (n : Fin 8) (s : State), eventsDelivered s → s.responds .ros = true → s.ros.busy = false → (s.trk n).sleep = .asleep →
      exec (.rosResume n 0 16) s = .next ({ s with ros := { s.ros with
        busy := true, run := some { op := 6, trunk := n, hub := 0, port := 16 } } }.updTrk n
        (fun t => { t with sleep := .waking (s.frame + 1) true })))
  ∧ (∀ (n : Fin 8) (h p i j : Nat) (e : Entry) (s : State), eventsDelivered s → s.responds .ros = true →
      s.ros.busy = false → h < 128 → p < 32 → s.entryAt n h 0 = some (i, e) →
      Keyed.lowestFree s.xfers 1024 4096 = some j → ∃ t, exec (.rosResetPort n h p) s = .next t
      ∧ t.ros.busy = true ∧ t.ros.run = some { op := 7, trunk := n, hub := h, port := p }
      ∧ (∃ x, t.xfer j = some x ∧ x.origin = .ctl .rosCmd ∧ x.addr = e.addr
          ∧ x.setup = [0x07, 0x20] ++ leBytes 2 p ++ [0, 0, 0, 0])
      ∧ Only (fun q => q ∈ [.ros, .xfers, .seq]) s t))
  ∧ ((∀ (n : Fin 8) (k a : Nat) (s : State), eventsDelivered s → (s.trk n).sleep = .eve a → 1 ≤ k →
      ∃ t, exec (.rxWake n k) s = .next t ∧ (t.trk n).sleep = .awake
      ∧ (∀ r, s.ros.run = some r → r.op = 5 → r.trunk = n.val → r.hub = 0 →
          t.ros.busy = false ∧ t.ros.status = stSuspendAborted ∧ t.ros.run = none)
      ∧ (t.crew 0).evt = (((s.crew 0).pushEvent ⟨.sleepAborted, n, 0x1000, s.tim.ns⟩).pushEvent
          ⟨.wakeReceived, n, 0x1000, s.tim.ns⟩).evt
      ∧ Only (fun p => p ∈ [.trk n, .ros, .evt 0]) s t)
  ∧ (∀ (n : Fin 8) (k : Nat) (s : State), eventsDelivered s → (s.trk n).sleep = .asleep → exec (.rxWake n k) s = .next
      (if k < 4 then s else (s.updTrk n (fun t => { t with sleep := .waking (s.frame + 1) false })).told 0 .wakeReceived n 0x1000))
  ∧ (∀ (n : Fin 8) (r : Nat) (b : Bool) (s : State), eventsDelivered s → (s.trk n).sleep = .waking r b →
      (s.driven n = true → exec (.resumeSignalEnd n) s = .next { s.updTrk n (fun t => { t with dtxen := true }) with
        out := s.out ++ [.signal n .idle] })
      ∧ (s.driven n = false → exec (.resumeSignalEnd n) s = .next s)))



/-! ### The frame and the cox engine (chapters 2 and 7) -/

/-- R23, R409, R5, R13: a frame begins at device time's next boundary; it opens the frame's parts on every trunk anew
and puts the class-F fields in force.  While device time stands there is no boundary.
R23, R154: at the boundary an SOF with the frame number and the time quality, laid out as Table 5.5, goes out on every
running trunk that this unit drives (here one that is not pair-fed and is awake).
R477, R251: the guard settles the exchanges of the frame: one that failed with nothing good beyond adds 8 to the
counter of the first segment, a good one takes 1 off unless the counter is saturated; the frame's peak of slots is
shown.
Completes (each answers a next state, by conditions on the state and the operands alone): `frameBoundary`,
`frameGuard`. -/
def Obligations.FrameBoundarySofAndGuard : Prop :=
  ((∀ s : State, eventsDelivered s → s.tim.running = false → exec .frameBoundary s = .next s)
  ∧ ∀ s : State, s.tim.running = true → ∃ t, exec .frameBoundary s = .next t
    ∧ t.frame = s.tim.nextBoundary / nsPerFrame ∧ t.tim.ns = max s.tim.ns s.tim.nextBoundary
    ∧ t.tim.nextBoundary = ceilDiv (s.tim.nextBoundary + nsPerFrame) nsPerFrame * nsPerFrame
    ∧ t.tim.rate = s.tim.rate ∧ t.tim.state = s.tim.state
    ∧ t.cox.mgrWeight = ⟨s.cox.mgrWeight.written, s.cox.mgrWeight.written⟩
    ∧ (∀ k, 10 ≤ k → k ≤ 20 → Tab.get 0 t.cal.userForce k = Tab.get 0 s.cal.user k)
    ∧ (∀ n : Fin 8, (t.trk n).part = 0 ∧ (t.trk n).nextOff = 0 ∧ (t.trk n).exchanges = [] ∧ (t.trk n).credit = []
        ∧ (t.trk n).deficit = [])
    ∧ t.pins = s.pins ∧ t.straps = s.straps ∧ t.fuse = s.fuse ∧ t.shadow = s.shadow ∧ t.pwr = s.pwr ∧ t.img = s.img
    ∧ t.cmd = s.cmd ∧ t.arbs = s.arbs ∧ t.fetchPtr = s.fetchPtr ∧ t.pending = s.pending)
  ∧ (∀ (n : Fin 8) (s : State), s.tim.running = true → s.tdm.handFrame = none → s.pairFed n = false →
    (s.trk n).state = .running → (s.trk n).dtxen = true → (s.trk n).quarantined = false → (s.trk n).headIdle = false →
    (s.trk n).stopReq = false → (s.trk n).pruneAt = none → (s.trk n).rateChg = none → (s.trk n).mode = .whole →
    (s.trk n).sleep = .awake →
    ∃ t, exec .frameBoundary s = .next t ∧ s.out <+: t.out
      ∧ ∃ time d dly ep, .packet n (sofPkt (t.frame % 65536) t.tim.state.quality time d dly ep) ∈ t.out ∧ t.tim.ns ≤ time)
  ∧ ((∀ s : State, ∃ t, exec .frameGuard s = .next t ∧ t.frame = s.frame ∧ (∀ n : Fin 8,
      (t.trk n).part = 3 ∧ (t.trk n).exchanges = [] ∧ (t.trk n).slotsPeak = (s.trk n).peakNow ∧ (t.trk n).hopWait = none
      ∧ (t.trk n).slots = (s.trk n).slots ∧ (t.trk n).state = (s.trk n).state
      ∧ ((∀ e ∈ (s.trk n).exchanges, e.good = false ∧ 1 ≤ e.hop) →
          (t.trk n).tec = Nat.repeat (fun v => min 255 (v + 8)) (s.trk n).exchanges.length (s.trk n).tec)
      ∧ ((∀ e ∈ (s.trk n).exchanges, e.good = true ∧ 1 ≤ e.hop) →
          (t.trk n).tec = Nat.repeat (fun v => if v = 255 then v else v - 1) (s.trk n).exchanges.length (s.trk n).tec))
      ∧ Only (fun p => p ∈ [.tdm, .out] || p matches .trk _ | .crew _ | .evt _) s t))

/-- R245: the urgent part opens at 29τ and issues at most one transaction of the trunk at once, at or after 29τ and the
end of the previous downstream occupancy, clear of everything held and ending its own by P0; it opens once in a frame.
R235, R245, R247: an issue adds at most one transaction to the line; it starts no earlier than the end of the
previous downstream occupancy, meets nothing held, ends before the guard and, in the urgent part, its downstream
occupancy by P0.  Outside the two parts nothing is issued.
Completes (each answers a next state, by conditions on the state and the operands alone): `urgentPartStart`,
`transactionIssue`. -/
def Obligations.UrgentPartAndFreeLine : Prop :=
  ((∀ (n : Fin 8) (s : State), eventsDelivered s → (s.trk n).part ≠ 0 → exec (.urgentPartStart n) s = .next s)
  ∧ ∀ (n : Fin 8) (s : State), (s.trk n).part = 0 → ∃ t, exec (.urgentPartStart n) s = .next t ∧ (t.trk n).part = 1
    ∧ (∃ l : List Txn, (t.trk n).slots = (s.trk n).slots ++ l ∧ l.length ≤ 1
        ∧ ∀ y ∈ l, max (s.trk n).nextOff (29 * tau (s.trk n).rateNow) ≤ y.off ∧ y.off + y.d ≤ s.p0 n
          ∧ y.off + y.b ≤ 9700 ∧ ∀ r ∈ (s.trk n).resv, noClash y.off ⟨y.d, y.e, y.b, y.cost⟩ (hasUp y.kind) r = true)
    ∧ Only (fun p => p ∈ [.trk n, .ros, .xfers, .tdm, .freeCtr, .out] || p matches .ctx _ | .crew _ | .evt _) s t)
  ∧ ((∀ (n : Fin 8) (s : State), ∃ t, exec (.transactionIssue n) s = .next t
      ∧ (∃ l : List Txn, (t.trk n).slots = (s.trk n).slots ++ l ∧ l.length ≤ 1
        ∧ ∀ y ∈ l, (s.trk n).nextOff ≤ y.off ∧ y.off + y.b ≤ 9700
          ∧ ((s.trk n).part = 1 → y.off + y.d ≤ s.p0 n) ∧ ((s.trk n).part = 1 ∨ (s.trk n).part = 2)
          ∧ ∀ r ∈ (s.trk n).resv, noClash y.off ⟨y.d, y.e, y.b, y.cost⟩ (hasUp y.kind) r = true)
      ∧ Only (fun p => p ∈ [.trk n, .ros, .xfers, .tdm, .freeCtr, .out] || p matches .ctx _ | .crew _ | .evt _) s t)
  ∧ (∀ (n : Fin 8) (s : State), (s.trk n).part ≠ 1 → (s.trk n).part ≠ 2 → ∃ t, exec (.transactionIssue n) s = .next t
      ∧ t.trk n = s.trk n ∧ t.out = s.out))

/-- R252, R253, R365, R235: a reservation reached once is used up, and stands again only as that of the transaction issued;
a poll the policy forbids is withheld and counted; one that may go is issued at its offset with the toggle expected; with
the endpoint busy it becomes late and keeps the toggle of its offset.
Completes (each answers a next state, by conditions on the state and the operands alone): `occurrenceIssue`. -/
def Obligations.OccurrencesReachTheirOffset : Prop :=
  (∀ (c : Fin 16384) (s : State), eventsDelivered s → (s.trk (s.ctx c).trunk).resv.find? (fun r => r.planned == some c.val) = none →
      exec (.occurrenceIssue c) s = .next s)
  ∧ ∀ (c : Fin 16384) (n : Nat) (r : Resv) (s : State), eventsDelivered s → (s.ctx c).trunk = n →
      (s.trk n).resv.find? (fun r => r.planned == some c.val) = some r → s.pairFed n = false → (s.trk n).hold = false →
      (s.trk n).claimFrame = false → (s.trk n).state ≠ .rateChange → (s.ctx c).halted = false →
      s.ctxReach c = (.ok, true) → s.blocked n (s.ctx c).addr (s.ctx c).ep none = false →
      ∃ t, exec (.occurrenceIssue c) s = .next t
        ∧ ((s.ctx c).permits = false → (t.trk n).slots = (s.trk n).slots ∧ t.out = s.out ∧ t.ctx c = { s.ctx c with
              epm := { (s.ctx c).epm with withheld := satAdd 0xFFFF (s.ctx c).epm.withheld 1 } }
            ∧ (t.trk n).resv = (s.trk n).resv.filter (fun r => r.planned ≠ some c.val))
        ∧ ((s.ctx c).permits = true → (s.ctx c).kind = 1 → s.ctxBusy n c = false → s.oneFirst c = false →
            ∀ i, (s.trk n).freeSlot = some i →
            ∃ (y : Txn) (q : Resv), (t.trk n).slots = (s.trk n).slots ++ [y] ∧ y.slot = i ∧ y.off = r.off
              ∧ y.purpose = .occurrence ∧ y.ctx = some c.val ∧ y.kind = .tokenP (s.ctx c).occT
              ∧ (t.trk n).resv = (s.trk n).resv.filter (fun r => r.planned ≠ some c.val) ++ [q]
              ∧ q.planned = none ∧ q.off = r.off ∧ q.d = y.d ∧ q.b = y.b
              ∧ t.out = s.out ++ [.packet n (linePkt (hdrBytes (mkHdr ptTokenIn (s.ctx c).rsNext false false 0 (s.ctx c).addr
                  (s.ctx c).ep (bit (s.ctx c).occT) 0)) [])])
        ∧ ((s.ctx c).permits = true → s.ctxBusy n c = true → (t.ctx c).occ.late = true
            ∧ (t.ctx c).occ.tg = some (s.ctx c).occT ∧ (t.trk n).slots = (s.trk n).slots ∧ t.out = s.out
            ∧ (t.trk n).resv = (s.trk n).resv.filter (fun r => r.planned ≠ some c.val))
        ∧ Only (fun p => p ∈ [.trk n, .ctx c, .crew (s.ctx c).owner, .out]) s t

/-- R246, R249: at C0 each crew with work waiting gets its minimum credit of the time that is left, plus its carry; one
without work carries nothing.  Without a hub to measure, no time goes to a HOP_REQ; with one, its cost is taken off.
Completes (each answers a next state, by conditions on the state and the operands alone): `controlBulkStart`. -/
def Obligations.ControlBulkStartSharesTime : Prop :=
  (∀ (n : Fin 8) (s : State), eventsDelivered s → 2 ≤ (s.trk n).part → exec (.controlBulkStart n) s = .next s)
  ∧ (∀ (n : Fin 8) (s : State), (s.trk n).part < 2 →
      s.hubAt n (s.frame % 256 + 1) ∉ s.hubsUp n →
      ∃ t, exec (.controlBulkStart n) s = .next t ∧ (t.trk n).part = 2 ∧ (t.trk n).slots = (s.trk n).slots
        ∧ (∀ k, k < 64 → t.hasWork n k = true → Tab.get 0 (t.trk n).credit k
            = s.bulkMin k * (9700 - (s.trk n).c0) / 1024 + (Tab.get {} (s.crew k).stat n).carry)
        ∧ (∀ k, k < 64 → t.hasWork n k = false → (Tab.get {} (t.crew k).stat n).carry = 0))
  ∧ (∀ (n : Fin 8) (i h : Nat) (s : State), (s.trk n).part < 2 → h = s.frame % 256 + 1 →
      s.hubAt n h ∈ s.hubsUp n → s.hopOf n (s.hubAt n h) = h → s.reach n (s.hubAt n h) 0 = .ok → s.mayOwn n = true →
      (s.trk n).slots = [] → (s.trk n).resv = [] → s.nowOff ≤ (s.trk n).c0 →
      max (s.trk n).nextOff (s.trk n).c0 + (s.quant n (hopTxn .measure n h 1 s)).b ≤ 9700 →
      ∃ t y, exec (.controlBulkStart n) s = .next t ∧ (t.trk n).part = 2 ∧ (t.trk n).slots = [y] ∧ y.purpose = .measure
        ∧ (∃ e, y.kind = .hopReq e) ∧ y.hub = s.hubAt n h ∧ y.off = max (s.trk n).nextOff (s.trk n).c0
        ∧ (i < 64 → t.hasWork n i = true → Tab.get 0 (t.trk n).credit i
            = s.bulkMin i * (9700 - (s.trk n).c0 - y.cost) / 1024 + (Tab.get {} (s.crew i).stat n).carry))

/-! ### The almanac (chapter 7) -/

/-- R262: a command of `COX_ALM_CMD` while one runs is answered BUSY; an add or a remove starts; a read ends at once,
with the four words of the entry or the reason why there is none.
R243, R258: a remove of a placed entry that is no hub's marks it for the next boundary; of an endpoint without an
entry it answers NO_ENTRY; with nothing running the completion does nothing.
Completes (each answers a next state, by conditions on the state and the operands alone): `almAdd`, `almRemove`,
`almRead`, `almOpComplete`. -/
def Obligations.AlmanacCommandsStartAndRemove : Prop :=
  ((∀ (c : Fin 16384) (i p : Nat) (s : State), eventsDelivered s → s.responds .cox = true → s.cox.busy = true →
      ∀ x ∈ [Instr.almAdd c i p, .almRemove c, .almRead c],
        exec x s = .next { s with cox := { s.cox with reason := alBusy } })
  ∧ (∀ (c : Fin 16384) (i p : Nat) (s : State), eventsDelivered s → s.responds .cox = true → s.cox.busy = false →
      exec (.almAdd c i p) s = .next { s with cox := { s.cox with busy := true, run := some (1, c.val, i % 16, p % 256) } }
      ∧ exec (.almRemove c) s = .next { s with cox := { s.cox with busy := true, run := some (2, c.val, 0, 0) } }
      ∧ exec (.almRead c) s = .next { s with cox :=
          if (s.ctx c).isPeriodic = false then { s.cox with reason := alNotPeriodic }
          else if (s.ctx c).alm.present = false then { s.cox with reason := alNoEntry }
          else { s.cox with reason := alOk, entry := (s.ctx c).alm.words c } })
  ∧ (∀ (c : Fin 16384) (i p : Nat) (s : State), eventsDelivered s → s.responds .cox = false →
      ∀ x ∈ [Instr.almAdd c i p, .almRemove c, .almRead c], exec x s = .next s))
  ∧ ((∀ (c : Fin 16384) (s : State), eventsDelivered s → s.cox.run = some (2, c.val, 0, 0) → (s.ctx c).isPeriodic = true →
      s.isHubCtx (s.ctx c) = false → ∃ t, exec .almOpComplete s = .next t ∧ t.cox.busy = false ∧ t.cox.run = none
      ∧ ((s.ctx c).alm.present = true → t.cox.reason = alOk
          ∧ t.ctx c = { s.ctx c with alm := { (s.ctx c).alm with removing := true } })
      ∧ ((s.ctx c).alm.present = false → t.cox.reason = alNoEntry ∧ t.ctx c = s.ctx c)
      ∧ Only (fun q => q ∈ [.cox, .ctx c]) s t)
  ∧ (∀ s : State, eventsDelivered s → s.cox.run = none → exec .almOpComplete s = .next s))

/-- R239, R240, R241, R243: an add that succeeds has its budget in every due frame and holds the first offset that fits,
at the head end and, where the tail is placed, at the tail end; it comes into force later.  One that fails gives a
reason and changes no entry.
Completes (each answers a next state, by conditions on the state and the operands alone): `almOpComplete`. -/
def Obligations.AlmanacAddPlacesFirstFit : Prop :=
  ∀ (c : Fin 16384) (i p : Nat) (s : State), eventsDelivered s → s.cox.run = some (1, c.val, i, p) →
    ∃ t, exec .almOpComplete s = .next t ∧ t.cox.busy = false ∧ t.cox.run = none
      ∧ ((s.ctx c).isPeriodic = false → t.cox.reason = alNotPeriodic)
      ∧ ((s.ctx c).isPeriodic = true → s.isHubCtx (s.ctx c) = false → (s.ctx c).alm.present = true →
          t.cox.reason = alExists)
      ∧ (t.cox.reason ≠ alOk → ∀ k, t.ctx k = s.ctx k)
      ∧ (t.cox.reason = alOk → ∃ a : Alm, t.ctx c = { s.ctx c with alm := a } ∧ a.adding = true ∧ a.valid = false
          ∧ a.ilog2 = i ∧ i ≤ 8 ∧ a.phase < 2 ^ i ∧ (p ≠ 0xFF → a.phase = p) ∧ t.cox.phase = a.phase
          ∧ t.cox.entry = a.words c ∧ FirstFit s (s.ctx c) i a.phase false a.offHead
          ∧ s.budgetOk (s.ctx c) i a.phase false (fun _ => false) = true
          ∧ a.costHead = (s.almQuant (s.ctx c) false).cost
          ∧ (s.placesTail (s.ctx c).trunk = true → FirstFit s (s.ctx c) i a.phase true a.offTail)
          ∧ (s.placesTail (s.ctx c).trunk = false → a.offTail = 0x3FFF))
      ∧ Only (fun q => q ∈ [.cox, .ctx c]) s t



/-! ### Crews and mailboxes (chapter 8) -/

/-- R271, R272: one crew command runs at a time, a second one is answered BUSY; Create takes an ABSENT crew with a
section and a VF through CREATING to RUNNING, with its section's share, and raises `CREW_CREATED`.
Completes (each answers a next state, by conditions on the state and the operands alone): `crwCreate`,
`crewCmdComplete`. -/
def Obligations.CrewCommandsTakeTurns : Prop :=
  (∀ (k : Fin 64) (s : State), eventsDelivered s → s.responds .crw = true → s.cmd.busy = true →
      ∀ x ∈ [(Instr.crwCreate k, 1), (.crwTearDown k, 2), (.crwReset k, 3), (.grantEndpoint k, 4), (.revokeEndpoint k, 5),
        (.setExtraQuota k, 6), (.setShare k, 7), (.grantUrgentBroadcast k, 8), (.withdrawUrgentBroadcast k, 9)],
      exec x.1 s = .next { s with cmd := { s.cmd with reason := cwBusy, lastOp := x.2 } })
  ∧ (∀ (k : Fin 64) (s : State), eventsDelivered s → s.responds .crw = true → s.cmd.busy = false →
      s.img.applied.isSome = true →
      (s.createReason k = cwOk → ∃ t, exec (.crwCreate k) s = .next t ∧ t.cmd = { s.cmd with busy := true, run := some (1, k.val) }
        ∧ t.crew k = { s.crew k with st := .creating } ∧ Only (fun p => p ∈ [.cmd, .crew k]) s t)
      ∧ (s.createReason k ≠ cwOk → exec (.crwCreate k) s = .next { s with cmd := { s.cmd with
          reason := s.createReason k, lastOp := 1, run := none, revoke := none } }))
  ∧ (∀ (k : Fin 64) (c : CrewSec) (s : State), eventsDelivered s → 1 ≤ k.val → s.cmd.run = some (1, k.val) → s.sec k = some c →
      (s.crew k).flrWait = false → (∀ j, (s.crew j).st ≠ .resetting ∧ (s.crew j).st ≠ .tearingDown) →
      ∃ t, exec .crewCmdComplete s = .next t ∧ t.cmd.busy = false ∧ t.cmd.reason = cwOk ∧ t.cmd.lastOp = 1
        ∧ (t.crew k).st = .running ∧ (t.crew k).share = ⟨(c.bulkMin, c.bulkWeight), (c.bulkMin, c.bulkWeight)⟩
        ∧ (t.crew k).extraTc = [] ∧ (t.crew k).extraCells = 0 ∧ (t.crew k).extraQueues = 0
        ∧ Told s t 0 .crewCreated 255 k ∧ Only (fun p => p ∈ [.cmd, .crew k, .evt k, .evt 0]) s t)

/-- R285, R287, R296: with none of the crew's transactions on the line a reset ends at once, its rings, queues, event
ring and ports back at their reset values and its work gone, and a tear down of a crew without contexts leaves it
ABSENT; otherwise the command waits, at most until its time is out, which takes the transactions from the line.
Completes (each answers a next state, by conditions on the state and the operands alone): `crwTearDown`, `crwReset`,
`crewCmdTimeout`. -/
def Obligations.CrewResetAndTearDown : Prop :=
  (∀ (k : Fin 64) (s : State), eventsDelivered s → 1 ≤ k.val → s.responds .crw = true → s.cmd.busy = false →
      s.img.applied.isSome = true → (s.crew k).st = .running → s.crewQuiet k = true →
      (∃ t, exec (.crwReset k) s = .next t ∧ t.cmd.busy = false ∧ t.cmd.reason = cwOk ∧ t.cmd.lastOp = 3
        ∧ (t.crew k).st = .running ∧ (t.crew k).rings = [] ∧ (t.crew k).cqs = [] ∧ (t.crew k).rxps = []
        ∧ (t.crew k).mboxUp = {} ∧ (t.crew k).mboxDn = {} ∧ (t.crew k).vecs = []
        ∧ (∀ i x, t.xfer i = some x → x.crew = k.val → x.fromRing = false) ∧ Told s t 0 .crewResetDone 255 k
        ∧ t.tim = s.tim ∧ t.frame = s.frame ∧ t.img = s.img ∧ t.pwr = s.pwr ∧ t.tdm = s.tdm)
      ∧ ((∀ c ∈ s.ctxs, c.2.used = true → c.2.owner ≠ k.val) →
          ∃ t, exec (.crwTearDown k) s = .next t ∧ t.cmd.busy = false ∧ t.cmd.reason = cwOk ∧ t.cmd.lastOp = 2
          ∧ (t.crew k).st = .absent ∧ (t.crew k).bcast = false ∧ (t.crew k).extraCells = 0
          ∧ (∀ i x, t.xfer i = some x → x.crew = k.val → x.fromRing = false)))
  ∧ (∀ (k : Fin 64) (s : State), 1 ≤ k.val → s.responds .crw = true → s.cmd.busy = false → s.img.applied.isSome = true →
      (s.crew k).st = .running → (∃ n, ∃ x ∈ (s.trk n).slots, x.crew = k.val) →
      (∃ t, exec (.crwReset k) s = .next t ∧ t.cmd.busy = true ∧ t.cmd.run = some (3, k.val) ∧ (t.crew k).st = .resetting)
      ∧ (∃ t, exec (.crwTearDown k) s = .next t ∧ t.cmd.busy = true ∧ t.cmd.run = some (2, k.val)
          ∧ (t.crew k).st = .tearingDown))
  ∧ (∀ (k : Fin 64) (s : State), 1 ≤ k.val → s.cmd.run = some (3, k.val) → (s.crew k).st = .resetting →
      ∃ t, exec .crewCmdTimeout s = .next t ∧ t.cmd.busy = false ∧ t.cmd.reason = cwOk ∧ (t.crew k).st = .running
        ∧ (∀ n, ∀ x ∈ (t.trk n).slots, x.crew ≠ k.val) ∧ (∀ i x, t.xfer i = some x → x.crew = k.val → x.fromRing = false))
  ∧ (∀ s : State, eventsDelivered s → s.cmd.run = none →
      (∀ j, (s.crew j).st ≠ .resetting ∧ (s.crew j).st ≠ .tearingDown) →
      exec .crewCmdComplete s = .next s ∧ exec .crewCmdTimeout s = .next s)

/-- R277, R278, R280, R362: a grant takes a free context with the start values and the map's kind and size, sets the
node's owner and tells the crew; one whose checks fail gives its reason.  A revoke marks the context at once and ends
it, freed and told, when nothing holds it.
Completes (each answers a next state, by conditions on the state and the operands alone): `grantEndpoint`,
`revokeEndpoint`, `crewCmdComplete`. -/
def Obligations.GrantsAndRevokes : Prop :=
  (∀ (k : Fin 64) (i : Nat) (e : Entry) (s : State), eventsDelivered s → s.responds .crw = true → s.cmd.busy = false →
      s.img.applied.isSome = true → (k.val = 0 ∨ (s.crew k).st = .running) →
      (s.grantCheck s.cmd.trunk s.cmd.addr s.cmd.ep k = cwOk → s.entryOf s.cmd.trunk s.cmd.addr = some (i, e) →
        s.entry i = some e → s.allocReason e.trunk k (epKind e.epmap s.cmd.ep) (epMax e.epmap s.cmd.ep) = cwOk →
        (∃ c, c < 16384 ∧ (s.ctx c).used = false) →
        ∃ t c, exec (.grantEndpoint k) s = .next t ∧ t.cmd.reason = cwOk ∧ t.cmd.lastOp = 4 ∧ t.cmd.busy = false
          ∧ c < 16384 ∧ (s.ctx c).used = false
          ∧ t.ctx c = { used := true, trunk := e.trunk, addr := e.addr, ep := s.cmd.ep, entry := i, owner := k,
                        kind := epKind e.epmap s.cmd.ep, maxPacket := epMax e.epmap s.cmd.ep, bcastOk := epBcast e.epmap s.cmd.ep,
                        epm := { size := if periodic (epKind e.epmap s.cmd.ep) then s.bufSize k else 0 } }
          ∧ t.entry i = some { e with owner := k } ∧ (∃ d, Told s t k .epGranted s.cmd.trunk d)
          ∧ Only (fun p => p ∈ [.cmd, .ros, .ctx c, .freeCtr, .evt k]) s t)
      ∧ (s.grantCheck s.cmd.trunk s.cmd.addr s.cmd.ep k ≠ cwOk → exec (.grantEndpoint k) s = .next { s with cmd := { s.cmd with
          reason := s.grantCheck s.cmd.trunk s.cmd.addr s.cmd.ep k, lastOp := 4, run := none, revoke := none } }))
  ∧ (∀ (k : Fin 64) (c : Nat) (s : State), s.responds .crw = true → s.cmd.busy = false → s.img.applied.isSome = true →
      s.ctxOf s.cmd.trunk s.cmd.addr s.cmd.ep = some c → (s.ctx c).revoking = false →
      ∃ t, exec (.revokeEndpoint k) s = .next t ∧ t.cmd.busy = true ∧ t.cmd.run = some (5, k.val) ∧ t.cmd.revoke = some c
        ∧ (t.ctx c).revoking = true ∧ (t.ctx c).alm.removing = true)
  ∧ (∀ (k c : Nat) (s : State), eventsDelivered s → s.cmd.run = some (5, k) → s.cmd.revoke = some c → (s.ctx c).used = true →
      s.revokeReady c = true → (∀ j, (s.crew j).st ≠ .resetting ∧ (s.crew j).st ≠ .tearingDown) →
      ∃ t, exec .crewCmdComplete s = .next t ∧ t.cmd.busy = false ∧ t.cmd.reason = cwOk ∧ t.ctx c = {}
        ∧ Told s t (s.ctx c).owner .epRevoked (s.ctx c).trunk c)

/-- R273, R275, R283, R284: an extra grant within the pool is in force at once; a share is written for the next
boundary; urgent broadcast is given where the section permits it and taken back, its crew counted until its last BCAST
has left the line.
Completes (each answers a next state, by conditions on the state and the operands alone): `setExtraQuota`, `setShare`,
`grantUrgentBroadcast`, `withdrawUrgentBroadcast`. -/
def Obligations.QuotaShareAndBroadcast : Prop :=
  ∀ (k : Fin 64) (s : State), eventsDelivered s → 1 ≤ k.val → s.responds .crw = true → s.cmd.busy = false →
    s.img.applied.isSome = true → (s.crew k).st = .running →
    (s.cmd.resource = 1 → (s.cmd.amount : Int) ≤ s.cellFree k → ∃ t, exec (.setExtraQuota k) s = .next t
      ∧ t.cmd.reason = cwOk ∧ (t.crew k).extraCells = s.cmd.amount
      ∧ Told s t k .quotaChanged 255 (1 + t.cellQuota k * 256) ∧ Only (fun p => p ∈ [.cmd, .crew k, .evt k]) s t)
    ∧ (s.cmd.resource = 1 → s.cellFree k < s.cmd.amount → exec (.setExtraQuota k) s = .next { s with cmd := { s.cmd with
        reason := cwOverPool, lastOp := 6, run := none, revoke := none } })
    ∧ (s.cmd.amount ≤ ((s.sec k).map (·.bulkMin)).getD 0 → s.cmd.amount < 2048 → s.cmd.weight ≠ 0 →
        ∃ t, exec (.setShare k) s = .next t ∧ t.cmd.reason = cwOk
          ∧ (t.crew k).share = ⟨(s.cmd.amount, s.cmd.weight), (s.crew k).share.inForce⟩ ∧ Only (fun p => p ∈ [.cmd, .crew k]) s t)
    ∧ (((s.sec k).map (·.permBcast)).getD false = true → ∃ t, exec (.grantUrgentBroadcast k) s = .next t
        ∧ t.cmd.reason = cwOk ∧ (t.crew k).bcast = true ∧ (t.crew k).bcastCounted = true
        ∧ t.isolationEffective = false ∧ Only (fun p => p ∈ [.cmd, .crew k]) s t)
    ∧ (((s.sec k).map (·.permBcast)).getD false = false → exec (.grantUrgentBroadcast k) s = .next ({ s with cmd :=
        { s.cmd with reason := cwNoPerm, lastOp := 8, run := none, revoke := none } }.told 0 .cfgReject 255 0x100000))
    ∧ ((s.crew k).bcast = true → ∃ t, exec (.withdrawUrgentBroadcast k) s = .next t ∧ t.cmd.reason = cwOk
        ∧ (t.crew k).bcast = false
        ∧ ((∃ n, ∃ x ∈ (s.trk n).slots, x.crew = k.val ∧ hasUp x.kind = false) → (t.crew k).bcastCounted = (s.crew k).bcastCounted)
        ∧ ((s.trks.all (fun n => n.2.slots.all (fun x => x.crew != k.val || hasUp x.kind))) = true →
            (t.crew k).bcastCounted = false))

/-- R289, R290: a doorbell with the next sequence number takes a snapshot of the words announced and tells the
receiver; while a message is pending, or out of sequence, it is dropped and the sender told; the acknowledgement that
names the pending message clears it and tells the sender.
Completes (each answers a next state, by conditions on the state and the operands alone): `mbxUpDb`, `mbxDnDb`,
`mbxUpAck`, `mbxDnAck`. -/
def Obligations.MailboxesCarryMessages : Prop :=
  ∀ (k : Fin 64) (len sq : Nat) (s : State), eventsDelivered s → 1 ≤ k.val → s.responds .crw = true → (s.crew k).st = .running →
    (1 ≤ len → len ≤ 16 → (s.crew k).mboxUp.pending = false → sq % 256 = ((s.crew k).mboxUp.seq + 1) % 256 →
      ∃ t, exec (.mbxUpDb k len sq) s = .next t
        ∧ t.crew k = { s.crew k with mboxUp := { (s.crew k).mboxUp with
            buffer := (s.crew k).mboxUp.staging.filter (fun w => decide (w.1 < len)), pending := true, seq := sq % 256 } }
        ∧ Told s t 0 .mbxReceived 255 (pairDetail k sq) ∧ Only (fun p => p ∈ [.crew k, .evt 0]) s t)
    ∧ (1 ≤ len → len ≤ 16 → (s.crew k).mboxUp.pending = true → ∃ t, exec (.mbxUpDb k len sq) s = .next t
        ∧ (t.crew k).mboxUp = { (s.crew k).mboxUp with busyDrop := true }
        ∧ Told s t k .mbxDropped 255 (pairDetail k sq) ∧ Only (fun p => p ∈ [.crew k, .evt k]) s t)
    ∧ (1 ≤ len → len ≤ 16 → (s.crew k).mboxDn.pending = false → sq % 256 = ((s.crew k).mboxDn.seq + 1) % 256 →
        ∃ t, exec (.mbxDnDb k len sq) s = .next t
          ∧ (t.crew k).mboxDn = { (s.crew k).mboxDn with
              buffer := (s.crew k).mboxDn.staging.filter (fun w => decide (w.1 < len)), pending := true, seq := sq % 256 }
          ∧ Told s t k .mbxReceived 255 (pairDetail k sq) ∧ Only (fun p => p ∈ [.crew k, .evt k]) s t)
    ∧ (1 ≤ len → len ≤ 16 → (s.crew k).mboxDn.pending = false → sq % 256 ≠ ((s.crew k).mboxDn.seq + 1) % 256 →
        ∃ t, exec (.mbxDnDb k len sq) s = .next t ∧ (t.crew k).mboxDn = { (s.crew k).mboxDn with seqErr := true }
          ∧ Told s t 0 .mbxSeqErr 255 (pairDetail k sq))
    ∧ ((s.crew k).mboxUp.pending = true → (s.crew k).mboxUp.seq = sq % 256 → ∃ t, exec (.mbxUpAck k sq) s = .next t
        ∧ (t.crew k).mboxUp = { (s.crew k).mboxUp with pending := false }
        ∧ Told s t k .mbxAcked 255 (pairDetail k sq) ∧ Only (fun p => p ∈ [.crew k, .evt k]) s t)
    ∧ ((s.crew k).mboxDn.pending = true → (s.crew k).mboxDn.seq = sq % 256 → ∃ t, exec (.mbxDnAck k sq) s = .next t
        ∧ (t.crew k).mboxDn = { (s.crew k).mboxDn with pending := false }
        ∧ Told s t 0 .mbxAcked 255 (pairDetail k sq) ∧ Only (fun p => p ∈ [.crew k, .evt 0]) s t)
    ∧ ((s.crew k).mboxUp.pending = false ∨ (s.crew k).mboxUp.seq ≠ sq % 256 → exec (.mbxUpAck k sq) s = .next s)
    ∧ ((s.crew k).mboxDn.pending = false ∨ (s.crew k).mboxDn.seq ≠ sq % 256 → exec (.mbxDnAck k sq) s = .next s)

/-! ### Work rings, completion queues and host reads (chapter 9) -/

/-- R299, R300, R303, R323, R325: a DISABLED ring that keeps the rules starts with its counts at 0, any other is
refused; a doorbell in range is stored, any other is ignored and told; a restart makes a HALTED ring run; a shutdown
ends an empty ring at once and sweeps the entries not taken of another as ABORTED.
Completes (each answers a next state, by conditions on the state and the operands alone): `rngEnable`, `rngShutdown`,
`rngRestart`, `rngPiWrite`. -/
def Obligations.RingsStartAndTakeDoorbells : Prop :=
  ∀ (acc : Acc) (k : Fin 64) (r : Fin 8) (s : State), eventsDelivered s → s.regOk acc k .rng = true →
    ((s.ring k r).state = .disabled → s.ringEnableOk k r = true → ∃ t, exec (.rngEnable acc k r) s = .next t
      ∧ t.ring k r = { s.ring k r with
          state := .running, pi := 0, ci := 0, done := 0, ents := [], ahead := [], fetching := false, noChanTold := false }
      ∧ (∀ j, j ≠ r.val → t.ring k j = s.ring k j) ∧ Only (fun p => p ∈ [.crew k]) s t)
    ∧ ((s.ring k r).state = .disabled → s.ringEnableOk k r = false → exec (.rngEnable acc k r) s = .next
        (s.told (accFn acc k) .cfgReject 255 (ringOffset acc k r 0x1C + accFn acc k * 0x1000000)))
    ∧ (∀ p : Word, (s.ring k r).state = .running ∨ (s.ring k r).state = .halted → r.val < (s.ringLimit k).1 →
        (piOk p (s.ring k r).pi (s.ring k r).done (s.ring k r).sizeLog2 = true → ∃ t, exec (.rngPiWrite acc k r p) s = .next t
          ∧ t.ring k r = { s.ring k r with pi := p } ∧ (∀ j, j ≠ r.val → t.ring k j = s.ring k j)
          ∧ Only (fun p => p ∈ [.crew k]) s t)
        ∧ (piOk p (s.ring k r).pi (s.ring k r).done (s.ring k r).sizeLog2 = false →
            exec (.rngPiWrite acc k r p) s = .next (s.told k .ringIndexInvalid 255 (pairDetail r 0))))
    ∧ ((s.ring k r).state = .halted → ∃ t, exec (.rngRestart acc k r) s = .next t
        ∧ t.ring k r = { s.ring k r with state := .running } ∧ Only (fun p => p ∈ [.crew k]) s t)
    ∧ ((s.ring k r).state = .running ∨ (s.ring k r).state = .halted →
        ∃ t, exec (.rngShutdown acc k r) s = .next t
          ∧ ((s.ring k r).pi = (s.ring k r).done → (t.ring k r).state = .disabled ∧ (t.ring k r).ents = []
              ∧ Told s t k .ringShutdownDone 255 (pairDetail k r) ∧ Told s t 0 .ringShutdownDone 255 (pairDetail k r))
          ∧ ((s.ring k r).pi ≠ (s.ring k r).done → (t.ring k r).state = .stopping ∧ (t.ring k r).ahead = []
              ∧ (t.ring k r).ents.length = max (s.ring k r).ents.length ((s.ring k r).pi - (s.ring k r).done).toNat
              ∧ ∀ e ∈ (t.ring k r).ents.drop (s.ring k r).ents.length, e.outcome = some (stAborted, 0)))

/-- R301, R304, R320: a completion queue is enabled with HEAD and TAIL at 0, disabled only while no active ring names
it, and takes back space by a HEAD in range, which may end its stall; any other HEAD is ignored and told.
Completes (each answers a next state, by conditions on the state and the operands alone): `cqEnable`, `cqDisable`,
`cqHeadWrite`. -/
def Obligations.CompletionQueuesGiveSpace : Prop :=
  ∀ (acc : Acc) (k : Fin 64) (q : Fin 8) (s : State), eventsDelivered s → s.regOk acc k .rng = true →
    ((s.cq k q).enabled = false → (s.cq k q).sizeOk = true → ∃ t, exec (.cqEnable acc k q) s = .next t
      ∧ t.cq k q = { s.cq k q with enabled := true, head := 0, tail := 0, stalled := false, waiters := [] }
      ∧ (∀ j, j ≠ q.val → t.cq k j = s.cq k j) ∧ Only (fun p => p ∈ [.crew k]) s t)
    ∧ ((s.cq k q).enabled = true → s.cqNamed k q = false → ∃ t, exec (.cqDisable acc k q) s = .next t
        ∧ t.cq k q = { s.cq k q with enabled := false, stalled := false, waiters := [] } ∧ Only (fun p => p ∈ [.crew k]) s t)
    ∧ ((s.cq k q).enabled = true → s.cqNamed k q = true → exec (.cqDisable acc k q) s = .next
        (s.told (accFn acc k) .cfgReject 255 (cqOffset acc k q 0x18 + accFn acc k * 0x1000000)))
    ∧ (∀ h : Word, (s.cq k q).enabled = true →
        (((s.cq k q).tail - h).toNat ≤ 2 ^ (s.cq k q).sizeLog2 →
          (h - (s.cq k q).head).toNat ≤ ((s.cq k q).tail - (s.cq k q).head).toNat →
          ∃ t, exec (.cqHeadWrite acc k q h) s = .next t
          ∧ t.cq k q = { s.cq k q with
              head := h, stalled := (s.cq k q).stalled && decide (2 ^ (s.cq k q).sizeLog2 ≤ ((s.cq k q).tail - h).toNat) }
          ∧ Only (fun p => p ∈ [.crew k]) s t)
        ∧ (2 ^ (s.cq k q).sizeLog2 < ((s.cq k q).tail - h).toNat
            ∨ ((s.cq k q).tail - (s.cq k q).head).toNat < (h - (s.cq k q).head).toNat →
            exec (.cqHeadWrite acc k q h) s = .next (s.told k .ringIndexInvalid 255 (pairDetail q 1))))

/-- R307, R310, R312, R313: the fetcher turns to the next crew and ring with entries; with none read ahead it asks for
at most four descriptors before PI and the ring's end; an entry it may not execute, or a NOP, is settled at once; one
that needs the line takes the lowest free transfer context.
Completes (each answers a next state, by conditions on the state and the operands alone): `fetchTurn`. -/
def Obligations.FetcherTakesEntriesInTurn : Prop :=
  (∀ s : State, eventsDelivered s → s.nextFetch = none → exec .fetchTurn s = .next s)
  ∧ ∀ (k r : Nat) (s : State), eventsDelivered s → s.nextFetch = some (k, r) →
    ∃ t, exec .fetchTurn s = .next t ∧ t.fetchPtr = (k + 1) % 64 ∧ (t.crew k).ringPtr = (r + 1) % 8
      ∧ (∀ m, (s.ring k r).ahead = [] → m = min 4 (min ((s.ring k r).pi - (s.ring k r).ci).toNat
              (2 ^ (s.ring k r).sizeLog2 - (s.ring k r).ci.toNat % 2 ^ (s.ring k r).sizeLog2)) →
          (t.ring k r).fetching = true ∧ t.pci = { s.pci with queue := s.pci.queue ++ [⟨32, k, .read ⟨k,
            (s.ring k r).base + BitVec.ofNat 64 (32 * ((s.ring k r).ci.toNat % 2 ^ (s.ring k r).sizeLog2)), 32 * m,
            .desc k r (s.ring k r).ci.toNat m⟩⟩] })
      ∧ (∀ d l, (s.ring k r).ahead = d :: l →
          (∀ st, ((parseDesc d).judge k s = .okay ∧ st = stOk) ∨ ((parseDesc d).judge k s = .notExecuted ∧ st = stNotExecuted) →
            t.ring k r = { s.ring k r with
              ci := (s.ring k r).ci + 1, ahead := l,
              ents := (s.ring k r).ents ++ [⟨(parseDesc d).cmpl, (parseDesc d).cookie, some (st, 0)⟩] }
            ∧ t.xfers = s.xfers)
          ∧ ((parseDesc d).judge k s = .denied → (t.ring k r).ci = (s.ring k r).ci + 1
              ∧ Told s t k .ringPermDenied 255 (pairDetail k r) ∧ Told s t 0 .ringPermDenied 255 (pairDetail k r))
          ∧ (∀ op i, (parseDesc d).judge k s = .take → opOf (parseDesc d).opcode = some op → (parseDesc d).chain = false →
              s.tcUsed k ((parseDesc d).trunk s) < s.tcQuota k ((parseDesc d).trunk s) →
              Keyed.lowestFree s.xfers 4096 0 = some i →
              s.targetOf ((parseDesc d).xfer k r (s.ring k r).ci.toNat op s) = (.ok, true) →
              ∃ x, t.xfer i = some x ∧ x.origin = .ring k r (s.ring k r).ci.toNat ∧ x.op = op ∧ x.crew = k
                ∧ x.length = (parseDesc d).length ∧ x.buf = (parseDesc d).addr ∧ x.seq = s.seq ∧ x.ended = false
                ∧ t.seq = s.seq + 1 ∧ (t.ring k r).ci = (s.ring k r).ci + 1))

/-- R310, R311, R323, R336, R544: a completion frees its tag and brings the descriptors asked for; an error, or a
completion that never comes, is logged, fails the entry at CI with HOST_MEM_ERR and halts its ring; a chain of 256 links
without an end fails its transfer with CHAIN_LIMIT.
Completes (each answers a next state, by conditions on the state and the operands alone): `chainLimit`,
`readCompletion`, `completionTimeout`. -/
def Obligations.ReadsEndAndRingsHalt : Prop :=
  (∀ (tag : Fin 64) (res : ReadResult) (s : State), eventsDelivered s → Keyed.find s.pci.tags tag = none →
      exec (.readCompletion tag res) s = .next s ∧ exec (.completionTimeout tag) s = .next s)
  ∧ (∀ (tag : Fin 64) (b : List Byte) (k r f n len : Nat) (a : Addr) (s : State), eventsDelivered s →
      Keyed.find s.pci.tags tag = some ⟨k, a, len, .desc k r f n⟩ → (s.ring k r).state = .running →
      ∃ t, exec (.readCompletion tag (.data b)) s = .next t ∧ t.pci = { s.pci with tags := Keyed.erase tag s.pci.tags }
        ∧ t.ring k r = { s.ring k r with ahead := cut32 n ((b ++ List.replicate len 0).take len), fetching := false }
        ∧ Only (fun p => p ∈ [.pci, .crew k]) s t)
  ∧ (∀ (tag : Fin 64) (k r f n len : Nat) (a : Addr) (s : State), eventsDelivered s →
      Keyed.find s.pci.tags tag = some ⟨k, a, len, .desc k r f n⟩ → (s.ring k r).state = .running →
      (∃ t, exec (.completionTimeout tag) s = .next t ∧ ReadFailed k r a .completionTimeout s t)
      ∧ (∃ t, exec (.readCompletion tag .unsupported) s = .next t ∧ ReadFailed k r a .unsupportedRequest s t)
      ∧ (∃ t, exec (.readCompletion tag .aborted) s = .next t ∧ ReadFailed k r a .completerAbort s t))
  ∧ (∀ (i : Fin 4096) (x : Xfer) (k r m : Nat) (s : State), eventsDelivered s → s.xfer i = some x → x.chainOver = true →
      x.ended = false → x.stopping = none → s.inSlot i x.trunk = false → x.origin = .ring k r m → (s.ring k r).state = .running →
      ∃ t, exec (.chainLimit i) s = .next t ∧ (t.ring k r).state = .halted ∧ (t.ring k r).haltStatus = stChainLimit
        ∧ (∀ y, t.xfer i = some y → y.ended = true))
  ∧ (∀ (i : Fin 4096) (s : State), eventsDelivered s → (∀ x, s.xfer i = some x → x.chainOver = false) →
      exec (.chainLimit i) s = .next s)

/-- R316, R317, R318, R319, R320, R339, R311: the record due goes, under a grant, to the queue's TAIL slot with its phase and
moves DONE and TAIL on; a full queue stalls it, told once, and the rings that wait on it keep their order; NAK in as many
frames as allowed ends an OUT transfer NAK_TIMEOUT, but not on a held trunk; a free work-ring channel takes the next of its
crew's waiting transfers and walks its chain anew.
Completes (each answers a next state, by conditions on the state and the operands alone): `nakTimeout`,
`completionRecordWrite`, `workRingChannelTake`. -/
def Obligations.RecordsAreWritten : Prop :=
  (∀ (k : Fin 64) (r : Fin 8) (s : State), eventsDelivered s → (s.ring k r).nextRecord = none →
      exec (.completionRecordWrite k r) s = .next s)
  ∧ (∀ (k : Fin 64) (r : Fin 8) (x : Record) (q : Nat) (s : State), eventsDelivered s → (s.ring k r).nextRecord = some x →
      (s.ring k r).cq = q → (s.crew k).bme = true → (s.cq k q).enabled = true → s.crewRuns k = true →
      ((s.cq k q).full = false → (s.ring k r).state ≠ .stopping → s.granted 2 33 = true →
        ((s.cq k q).waiters = [] ∨ (s.cq k q).waiters.head? = some r.val) → ∃ t, exec (.completionRecordWrite k r) s = .next t
        ∧ t.out = s.out ++ [.hostWrite k
            ((s.cq k q).base + BitVec.ofNat 64 (16 * ((s.cq k q).tail.toNat % 2 ^ (s.cq k q).sizeLog2)))
            (x.bytes16 r ((s.ring k r).done + BitVec.ofNat 32 (x.count - 1)).toNat (phaseOf (s.cq k q).tail (s.cq k q).sizeLog2))]
        ∧ (t.cq k q).tail = (s.cq k q).tail + 1 ∧ (t.cq k q).head = (s.cq k q).head
        ∧ (t.cq k q).waiters = (s.cq k q).waiters.drop 1
        ∧ (t.ring k r).done = (s.ring k r).done + BitVec.ofNat 32 x.count
        ∧ (t.ring k r).ents = (s.ring k r).ents.drop x.count
        ∧ Only (fun p => p ∈ [.crew k, .xfers, .out, .pci, .arb 2]) s t)
      ∧ ((s.cq k q).full = false →
          (s.granted 2 33 = false ∨ ∃ j, (s.cq k q).waiters.head? = some j ∧ j ≠ r.val) →
          exec (.completionRecordWrite k r) s = .next (s.updCq k q (·.wait r)))
      ∧ ((s.cq k q).full = true → ∃ t, exec (.completionRecordWrite k r) s = .next t
          ∧ t.cq k q = { (s.cq k q).wait r with stalled := true } ∧ (t.ring k r) = s.ring k r
          ∧ ((s.cq k q).stalled = false → Told s t k .cqStalled 255 (pairDetail q 0))
          ∧ ((s.cq k q).stalled = true → (t.crew k).evt = (s.crew k).evt)
          ∧ Only (fun p => p ∈ [.crew k, .evt k]) s t))
  ∧ (∀ (i : Fin 4096) (x : Xfer) (s : State), eventsDelivered s → s.xfer i = some x → x.ended = false → x.fin = none →
      s.inSlot i x.trunk = false →
      (0 < x.nakFrames → x.nakFrames ≤ x.naks → x.isIn = false → s.heldTrunk x.trunk = false →
        ∃ t, exec (.nakTimeout i) s = .next t ∧ (∀ y, t.xfer i = some y → y.ended = true))
      ∧ (x.nakFrames = 0 ∨ x.naks < x.nakFrames ∨ s.heldTrunk x.trunk = true → exec (.nakTimeout i) s = .next s))
  ∧ (∀ (c : Fin 32) (k i : Nat) (x : Xfer) (s : State), eventsDelivered s → s.responds .dma = true → (s.chImg c).owner = k →
      k ≠ 0xFF → (s.chImg c).purpose = 0 → (s.ch c).serve = none → s.queueQuota k ≤ s.queuesUsed k →
      nextServed (s.ch c).last (s.xfers.filter (fun x => s.wantsChannel k x.2)) = some (i, x) → s.xfer i = some x →
      ∃ t w, exec (.workRingChannelTake c) s = .next t ∧ t.xfer i = some { x with channel := some c.val, walking := w }
        ∧ t.ch c = { s.ch c with serve := some i, moved := 0, staging := [], inFlight := [] }
        ∧ (x.walkEnd = true → w = x.walking ∧ t.pci = s.pci)
        ∧ (∀ o, o = (if x.isIn = true then x.written else x.asked) → x.walkEnd = false → x.walking = false →
            (hostSpan x.links o).2 = 0 → o < x.length → w = true ∧ t.pci = { s.pci with
              queue := s.pci.queue ++ [⟨32, x.crew, .read ⟨x.crew, x.linkAddr, 16, .walk c i⟩⟩] })
        ∧ Only (fun p => p ∈ [.xfers, .ch c, .pci]) s t)

/-! ### DMA, arbiters and receive ports (chapters 10 to 12) -/

/-- R342, R344, R349, R354, R357, R358: a DISABLED stream channel that keeps the rules starts with its counts at 0, any
other is refused; a doorbell out of range is ignored and told; an idle channel stops at once; a HALTED one restarts;
binding and unbinding give the reasons of Table 10.5.
Completes (each answers a next state, by conditions on the state and the operands alone): `dchEnable`, `dchStop`,
`dchRestart`, `dchPiWrite`, `dchCqHeadWrite`, `dmaBind`, `dmaUnbind`. -/
def Obligations.StreamChannelsStartAndStop : Prop :=
  (∀ (acc : Acc) (k : Fin 64) (c : Fin 32) (s : State), eventsDelivered s → s.chAccess acc k c = true →
      ((s.ch c).state = .disabled → s.chEnableOk c = true → ∃ t, exec (.dchEnable acc k c) s = .next t
        ∧ (t.ch c).state = .running ∧ (t.ch c).pi = 0 ∧ (t.ch c).ci = 0 ∧ (t.ch c).cursor = 0 ∧ (t.ch c).cqHead = 0
        ∧ (t.ch c).cqTail = 0 ∧ (t.ch c).ringBase = (s.ch c).ringBase ∧ Only (fun p => p ∈ [.ch c]) s t)
      ∧ ((s.ch c).state = .disabled → s.chEnableOk c = false → exec (.dchEnable acc k c) s = .next
          (s.told (accFn acc k) .cfgReject 255 (chOffset acc c 0x3C + accFn acc k * 0x1000000)))
      ∧ ((s.ch c).state = .running ∨ (s.ch c).state = .halted → (s.ch c).due = none → (s.ch c).pi = (s.ch c).ci →
          (s.ch c).back = false → s.chQuiet c = true → ∃ t, exec (.dchStop acc k c) s = .next t ∧ (t.ch c).state = .disabled
            ∧ Told s t (s.chOwner c) .dmaChStopped 255 (pairDetail c 0))
      ∧ ((s.ch c).state = .halted → ∃ t, exec (.dchRestart acc k c) s = .next t ∧ (t.ch c).state = .running
          ∧ (t.ch c).pi = (s.ch c).pi ∧ (t.ch c).ci = (s.ch c).ci ∧ Only (fun p => p ∈ [.ch c, .pci, .out]) s t)
      ∧ (∀ p : Word, (s.ch c).state = .running ∨ (s.ch c).state = .halted →
          (piOk p (s.ch c).pi (s.ch c).ci (s.ch c).sizeLog2 = true → ∃ t, exec (.dchPiWrite acc k c p) s = .next t
            ∧ (t.ch c).pi = p ∧ (t.ch c).ci = (s.ch c).ci ∧ (t.ch c).state = (s.ch c).state
            ∧ Only (fun p => p ∈ [.ch c, .pci, .out]) s t)
          ∧ (piOk p (s.ch c).pi (s.ch c).ci (s.ch c).sizeLog2 = false →
              exec (.dchPiWrite acc k c p) s = .next (s.told (s.chOwner c) .dmaIndexInvalid 255 (pairDetail c 0)))
          ∧ ((s.ch c).record = true → headOk p (s.ch c).cqHead (s.ch c).cqTail (s.ch c).cqSizeLog2 = true →
              ∃ t, exec (.dchCqHeadWrite acc k c p) s = .next t ∧ (t.ch c).cqHead = p ∧ (t.ch c).cqTail = (s.ch c).cqTail
                ∧ Only (fun p => p ∈ [.ch c]) s t)))
  ∧ (∀ (k : Fin 64) (x : Fin 16384) (c : Fin 32) (s : State), eventsDelivered s → s.responds .dma = true →
      s.crewRuns k = true →
      (∃ t, exec (.dmaBind k x c) s = .next t ∧ (t.crew k).bindReason = s.bindReason k x c false
        ∧ (s.bindReason k x c false = bdOk → (t.ctx x).channel = some c.val
            ∧ ((s.ctx x).epm.state = .full → (t.ch c).pend = (s.ch c).pend ++ [x.val]))
        ∧ (s.bindReason k x c false ≠ bdOk → t.ctx x = s.ctx x ∧ t.ch c = s.ch c)
        ∧ Only (fun p => p ∈ [.crew k, .ctx x, .ch c]) s t)
      ∧ (∃ t, exec (.dmaUnbind k x c) s = .next t ∧ (t.crew k).bindReason = s.bindReason k x c true
        ∧ (s.bindReason k x c true = bdOk → (t.ctx x).channel = none ∧ (t.ch c).pend = (s.ch c).pend.filter (· ≠ x.val))
        ∧ (s.bindReason k x c true ≠ bdOk → t.ctx x = s.ctx x ∧ t.ch c = s.ch c)))

/-- R335, R345, R346, R347, R348, R350, R351, R365, R368, R389: under a grant of the data path and without a barrier CAPTURE
copies the first bound sample waiting to the circular buffer and marks it USED, OVERRUN where one was lost; READ copies a
sample as it stands or reports NO_DATA; an uncorrectable error zeroes the buffer, is told, and leaves a CAPTURE waiting and a
READ without data; STAGE fills an OUT buffer once its source has come; a record due follows its data and is written, under a
grant, at the channel's TAIL.  Without the grant nothing moves.
Completes (each answers a next state, by conditions on the state and the operands alone): `dmaCapture`, `dmaRead`,
`dmaStage`, `streamRecordWrite`. -/
def Obligations.StreamDescriptorsMoveSamples : Prop :=
  (∀ (c : Fin 32) (d : List Byte) (x : Nat) (l : List Nat) (s : State), eventsDelivered s → s.chReady c 1 = some d →
      (s.ch c).pend = x :: l →
      (s.beatOk c = true → leAt d 0 4 / 256 % 2 = 0 → (s.ch c).record = true → ∃ t, exec (.dmaCapture ⟨c, .none⟩) s = .next t
        ∧ t.ctx x = { s.ctx x with epm := { (s.ctx x).epm with state := .used, lost := false } } ∧ (t.ch c).pend = l
        ∧ t.pci = { s.pci with queue := s.pci.queue ++ s.sampleWrites c x }
        ∧ (t.ch c).cursor = (s.ch c).cursor + cursorStep (s.ctx x).epm.data.length
        ∧ (t.ch c).due = some {
            ctx := x, status := if (s.ctx x).epm.lost then stOverrun else stOk,
            bytes := (s.ctx x).epm.data.length, cursor := (s.ch c).cursor, frame := (s.ctx x).epm.frame,
            stamp := (s.ctx x).epm.stamp, irq := leAt d 0 4 / 512 % 2 == 1 }
        ∧ Only (fun p => p ∈ [.ctx x, .ch c, .pci, .arb 1]) s t)
      ∧ (s.beatOk c = true → ∃ t, exec (.dmaCapture ⟨c, .uncorrectable⟩) s = .next t
          ∧ t.ctx x = { s.ctx x with epm := (s.ctx x).epm.zero } ∧ (t.ch c).desc = (s.ch c).desc ∧ (t.ch c).due = (s.ch c).due
          ∧ Told s t (s.ctx x).owner .epmEccError (s.ctx x).trunk x ∧ Told s t 0 .epmEccError (s.ctx x).trunk x)
      ∧ (∀ e, s.beatOk c = false → exec (.dmaCapture ⟨c, e⟩) s = .next s))
  ∧ (∀ (c : Fin 32) (d : List Byte) (s : State), eventsDelivered s → s.chReady c 2 = some d → (s.ch c).record = true →
      (s.ctx (leAt d 2 2 % 16384)).used = true → (s.ctx (leAt d 2 2 % 16384)).kind = 1 →
      (s.ctx (leAt d 2 2 % 16384)).owner = s.chOwner c →
      (∀ e, (s.ctx (leAt d 2 2 % 16384)).epm.state = .never → ∃ t x, exec (.dmaRead ⟨c, e⟩) s = .next t ∧ (t.ch c).due = some x
        ∧ x.status = stNoData ∧ x.bytes = 0 ∧ (t.ch c).cursor = (s.ch c).cursor ∧ Only (fun p => p ∈ [.ch c, .freeCtr]) s t)
      ∧ ((s.ctx (leAt d 2 2 % 16384)).epm.state ≠ .never → s.beatOk c = true →
          (leAt d 0 4 / 256 % 2 = 0 → ∃ t x, exec (.dmaRead ⟨c, .none⟩) s = .next t
            ∧ (t.ch c).due = some x ∧ x.status = stOk ∧ x.bytes = (s.ctx (leAt d 2 2 % 16384)).epm.data.length
            ∧ (∀ y, t.ctx y = s.ctx y)
            ∧ t.pci = { s.pci with queue := s.pci.queue ++ s.sampleWrites c (leAt d 2 2 % 16384) })
          ∧ (∃ t x, exec (.dmaRead ⟨c, .uncorrectable⟩) s = .next t ∧ (t.ch c).due = some x ∧ x.status = stNoData ∧ x.bytes = 0
              ∧ (t.ctx (leAt d 2 2 % 16384)).epm = (s.ctx (leAt d 2 2 % 16384)).epm.zero ∧ t.pci = s.pci))
      ∧ (∀ e, (s.ctx (leAt d 2 2 % 16384)).epm.state ≠ .never → s.beatOk c = false → exec (.dmaRead ⟨c, e⟩) s = .next s))
  ∧ (∀ (c : Fin 32) (d b : List Byte) (x : Nat) (s : State), eventsDelivered s → s.chReady c 3 = some d →
      x = leAt d 2 2 % 16384 → (s.ctx x).used = true → (s.ctx x).kind = 2 → (s.ctx x).owner = s.chOwner c →
      leAt d 4 4 ≤ (s.ctx x).longest → (s.ch c).staged = some b → (s.ch c).record = true →
      (s.beatOk c = true → (s.ctx x).epm.state ≠ .full ∨ (s.ctx x).epm.stageWait.inForce = false →
        ∃ t, exec (.dmaStage c) s = .next t
        ∧ (t.ctx x).epm = { (s.ctx x).epm with state := .full, newer := true, data := b, frame := s.frame }
        ∧ (∃ y, (t.ch c).due = some y ∧ y.status = stOk ∧ y.bytes = b.length ∧ y.frame = s.frame % 65536)
        ∧ (t.ch c).staged = none ∧ Only (fun p => p ∈ [.ctx x, .ch c, .arb 1]) s t)
      ∧ (s.beatOk c = false ∨ ((s.ctx x).epm.state = .full ∧ (s.ctx x).epm.stageWait.inForce = true) →
          exec (.dmaStage c) s = .next s))
  ∧ (∀ (c : Fin 32) (x : StreamRec) (s : State), eventsDelivered s → (s.ch c).due = some x → s.streamDue c = true →
      ((s.ch c).cqFull = false → (s.ch c).state ≠ .stopping → s.granted 2 33 = true →
        ∃ t, exec (.streamRecordWrite c) s = .next t
        ∧ t.out = s.out ++ [.hostWrite (s.chOwner c)
            ((s.ch c).cqBase + BitVec.ofNat 64 (16 * ((s.ch c).cqTail.toNat % 2 ^ (s.ch c).cqSizeLog2)))
            (x.bytes16 ((s.ch c).ci + BitVec.ofNat 32 (x.count - 1)).toNat (phaseOf (s.ch c).cqTail (s.ch c).cqSizeLog2))]
        ∧ (t.ch c).cqTail = (s.ch c).cqTail + 1 ∧ (t.ch c).ci = (s.ch c).ci + BitVec.ofNat 32 x.count ∧ (t.ch c).due = none
        ∧ Only (fun p => p ∈ [.ch c, .crew (s.chOwner c), .pci, .arb 2, .out]) s t)
      ∧ ((s.ch c).cqFull = false → s.granted 2 33 = false → exec (.streamRecordWrite c) s = .next s)
      ∧ ((s.ch c).cqFull = true → (s.ch c).cqStalled = false →
          ∃ t, exec (.streamRecordWrite c) s = .next t ∧ (t.ch c).cqStalled = true ∧ (t.ch c).due = some x ∧ t.out = s.out
            ∧ Told s t (s.chOwner c) .dmaCqStalled 255 (pairDetail c 0)))
  ∧ (∀ (c : Fin 32) (e : Ecc) (s : State), eventsDelivered s → (s.ch c).desc = none →
      exec (.dmaCapture ⟨c, e⟩) s = .next s ∧ exec (.dmaRead ⟨c, e⟩) s = .next s ∧ exec (.dmaStage c) s = .next s)

/-- R393, R395, R396, R398, R400, R402, R403, R407, R389: with no tenure running the grant goes, of the requests that stood
at the end of the last cycle and are not masked, to one of the highest level, the first from its level's pointer on, and the
requests of this cycle that can use a unit are kept for the next decision; a corrected error counts; a holder whose unit is
used keeps the grant while its burst lasts and no higher level asks; under its grant a waiting write is issued; a holder idle
to the limit loses its tenure, is masked at once and is cut off and told, until cleared; starvation is told once; a read of
the grants clears them.
Completes (each answers a next state, by conditions on the state and the operands alone): `arbDecision`,
`arbHolderCut`, `arbStarved`, `arbCutClear`, `arbGrantsRead`, `dmaTagsRead`. -/
def Obligations.ArbitersGrantByLevelAndTurn : Prop :=
  (∀ (bank : Fin 4) (a : Fin 3) (reqs seen : List Nat) (w : Nat) (done corr : Bool) (s : State), eventsDelivered s →
      Keyed.find (s.arb a).holder (arbBank a bank) = none → (s.arb a).suspended = [] →
      seen = (Tab.get [] (s.arb a).seen (arbBank a bank)).filter (fun i => !s.masked a i) →
      firstFrom (arbSize a) (Tab.get 0 (s.arb a).ptr (arbBank a bank * 4 + s.topLevel a seen))
        (seen.filter (fun i => s.arbLevel a i == s.topLevel a seen)) = some w →
      ∃ t x, exec (.arbDecision a bank reqs ⟨done, corr⟩) s = .next t ∧ Keyed.find (t.arb a).holder (arbBank a bank) = some x
        ∧ x.req = w ∧ x.left = (s.arbReq a w).units ∧ x.used = false ∧ x.idle = 0 ∧ w ∈ seen
        ∧ (∀ i ∈ seen, s.arbLevel a i ≤ s.arbLevel a w)
        ∧ Tab.get [] (t.arb a).seen (arbBank a bank) = reqs.filter (fun i => arbHas a i && s.canUse a (arbBank a bank) i)
        ∧ (a.val = 0 → corr = true → Tab.get 0 t.cells.corr bank = satAdd 0xFFFF (Tab.get 0 s.cells.corr bank) 1)
        ∧ (corr = false → t.cells = s.cells)
        ∧ Only (fun p => p ∈ [.arb a, .pci, .cells]) s t)
  ∧ (∀ (a : Fin 3) (bank : Fin 4) (x : Tenure) (reqs : List Nat) (done corr : Bool) (s : State), eventsDelivered s →
      Keyed.find (s.arb a).holder (arbBank a bank) = some x →
      (x.used = true → 1 < x.left → (∀ i ∈ Tab.get [] (s.arb a).seen (arbBank a bank), s.arbLevel a i ≤ s.arbLevel a x.req) →
        ∃ t, exec (.arbDecision a bank reqs ⟨done, corr⟩) s = .next t
        ∧ Keyed.find (t.arb a).holder (arbBank a bank) = some { x with left := x.left - 1, idle := 0, used := false }
        ∧ (t.arbReq a x.req).grants = satAdd 0xFFFFFFFF (s.arbReq a x.req).grants 1)
      ∧ (x.used = false → (s.arb a).holdLimit ≤ x.idle + 1 → ∃ t, exec (.arbDecision a bank reqs ⟨false, corr⟩) s = .next t
          ∧ (t.arbReq a x.req).cutDue = true ∧ t.masked a x.req = true
          ∧ ∀ y, Keyed.find (t.arb a).holder (arbBank a bank) = some y → y.req ≠ x.req))
  ∧ (∀ (bank : Fin 4) (x : Tenure) (q : HostReq) (w : Addr) (b : List Byte) (reqs : List Nat) (s : State), eventsDelivered s →
      Keyed.find (s.arb 2).holder 0 = some x → x.used = false → x.req ∈ Tab.get [] (s.arb 2).seen 0 →
      s.masked 2 x.req = false → s.nextHost x.req = some q → q.body = .write w b none →
      ∃ t, exec (.arbDecision 2 bank reqs ⟨true, false⟩) s = .next t ∧ t.out = s.out ++ [.hostWrite q.fn w b]
        ∧ t.pci.queue = s.pci.queue.erase q ∧ (t.arbReq 2 x.req).grants = satAdd 0xFFFFFFFF (s.arbReq 2 x.req).grants 1)
  ∧ (∀ (a : Fin 3) (bank : Fin 4) (i : Nat) (r : ArbReq) (s : State), eventsDelivered s →
      ((s.arb a).reqs.find? (·.2.cutDue) = some (i, r) → ∃ t, exec (.arbHolderCut a bank) s = .next t
        ∧ (t.arbReq a i).cut = true ∧ (t.arbReq a i).cutDue = false
        ∧ Told s t 0 .arbHolderCut 255 (pairDetail a i) ∧ Only (fun p => p ∈ [.arb a, .evt 0]) s t)
      ∧ ((s.arb a).reqs.find? (·.2.cutDue) = none → exec (.arbHolderCut a bank) s = .next s))
  ∧ (∀ (a : Fin 3) (i : Nat) (s : State), eventsDelivered s → arbHas a i = true →
      (s.responds .arb = true → (s.arbReq a i).cut = true → ∃ t, exec (.arbCutClear a i) s = .next t
        ∧ t.arbReq a i = { s.arbReq a i with cut := false } ∧ Only (fun p => p ∈ [.arb a]) s t)
      ∧ (s.responds .arb = true → ∃ t, exec (.arbGrantsRead a i) s = .next t ∧ (t.arbReq a i).grants = 0
          ∧ t.out = s.out ++ [.readReply (BitVec.ofNat 32 (s.arbReq a i).grants)] ∧ Only (fun p => p ∈ [.arb a, .out]) s t)
      ∧ ((s.arbReq a i).starvedTold = false → (∃ w ∈ (s.arbReq a i).waits, (s.arb a).starveLimit ≤ w.2) →
          ∃ t, exec (.arbStarved a i) s = .next t ∧ (t.arbReq a i).starved = true
            ∧ Told s t 0 .arbStarved 255 (pairDetail a i) ∧ Only (fun p => p ∈ [.arb a, .evt 0]) s t)
      ∧ ((s.arbReq a i).starvedTold = true → exec (.arbStarved a i) s = .next s))
  ∧ (∀ s : State, eventsDelivered s → s.responds .dma = true → exec .dmaTagsRead s = .next { s with
        pci := { s.pci with tagPeak := s.pci.tags.length },
        out := s.out ++ [.readReply (BitVec.ofNat 32 (s.pci.tags.length + s.pci.tagPeak * 0x10000))] })

/-- R378, R379, R381 to R385, R388: an open that passes Table 11.4 gives the port a standing transfer, any other its
reason; a pop takes the next word, waits at an empty open port and reads 0 at a closed one, as does one whose time is
out; a close and a flush empty the queue; a reset of a queue counts and drops its items.  While the port's queue is stopped
or the pops are masked a pop waits (R372, R401).
Completes (each answers a next state, by conditions on the state and the operands alone): `rxpOpen`, `rxpClose`,
`rxpFlush`, `rxpPop`, `popTimeout`, `rxpThresholdWrite`, `cellQueueReset`. -/
def Obligations.ReceivePortsPopAndClose : Prop :=
  ∀ (k : Fin 64) (p : Fin 4) (s : State), eventsDelivered s → s.portAccess k = true →
    ((s.rxp k p).state = .closed →
      (∀ i, s.openReason k p = poOk → Keyed.lowestFree s.xfers 4096 0 = some i → ∃ t y, exec (.rxpOpen k p) s = .next t
        ∧ (t.rxp k p).state = .open ∧ (t.rxp k p).reason = poOk ∧ (t.rxp k p).items = [] ∧ (t.rxp k p).xfer = some i
        ∧ t.xfer i = some y ∧ y.origin = .port k p ∧ y.op = .bulkIn ∧ y.queue = true ∧ y.ctx = some (s.rxp k p).ctx
        ∧ (t.ctx (s.rxp k p).ctx).port = some p.val)
      ∧ (s.openReason k p ≠ poOk → ∃ t, exec (.rxpOpen k p) s = .next t ∧ (t.rxp k p).state = .closed
          ∧ (t.rxp k p).reason = s.openReason k p ∧ Only (fun q => q ∈ [.crew k]) s t)
      ∧ exec (.rxpPop k p) s = .next { s with out := s.out ++ [.popReply k p 0] })
    ∧ ((s.rxp k p).state ≠ .closed →
      (s.canPop k p = false → ∃ t, exec (.rxpPop k p) s = .next t ∧ t.out = s.out
        ∧ t.rxp k p = { s.rxp k p with waitPops := (s.rxp k p).waitPops + 1 } ∧ Only (fun q => q ∈ [.crew k]) s t)
      ∧ (∀ it l, (s.rxp k p).items = it :: l → s.canPop k p = true → ∃ t, exec (.rxpPop k p) s = .next t
          ∧ t.out = s.out ++ [.popReply k p (popWord it (s.rxp k p).word)]
          ∧ (it.len ≤ 4 * ((s.rxp k p).word + 1) → (t.rxp k p).items = l ∧ (t.rxp k p).word = 0)
          ∧ (4 * ((s.rxp k p).word + 1) < it.len → (t.rxp k p).word = (s.rxp k p).word + 1
              ∧ (t.rxp k p).items.length = l.length + 1)
          ∧ Only (fun q => q ∈ [.crew k, .cells, .out]) s t)
      ∧ (∀ rc, ∃ t, exec (.rxpFlush k ⟨p, rc⟩) s = .next t ∧ (t.rxp k p).items = [] ∧ (t.rxp k p).waitPops = 0
          ∧ (t.rxp k p).state = (s.rxp k p).state
          ∧ (t.rxp k p).dropped = satAdd 0xFFFF (s.rxp k p).dropped (s.rxp k p).items.length
          ∧ t.out = s.out ++ List.replicate (s.rxp k p).waitPops (.popReply k p 0)
          ∧ (rc = true → ∀ i, (s.rxp k p).xfer = some i → ∀ x ∈ (t.trk (s.ctx (s.rxp k p).ctx).trunk).slots,
              x.xfer = some i → x.flushed = true)
          ∧ Only (fun q => q ∈ [.crew k, .cells, .out] || (rc && q == .trk (s.ctx (s.rxp k p).ctx).trunk)) s t))
    ∧ (0 < (s.rxp k p).waitPops → ∃ t, exec (.popTimeout k p) s = .next t ∧ t.out = s.out ++ [.popReply k p 0]
        ∧ t.rxp k p = { s.rxp k p with waitPops := (s.rxp k p).waitPops - 1, emptyPops := satAdd 0xFFFF (s.rxp k p).emptyPops 1 }
        ∧ Only (fun q => q ∈ [.crew k, .out]) s t)
    ∧ (∀ i x, (s.rxp k p).state = .open → (s.rxp k p).xfer = some i → s.xfer i = some x →
        (s.inSlot i x.trunk = true → ∃ t, exec (.rxpClose k p) s = .next t
          ∧ t.rxp k p = { s.rxp k p with state := .closing } ∧ Only (fun q => q ∈ [.crew k]) s t)
        ∧ (s.inSlot i x.trunk = false → ∃ t, exec (.rxpClose k p) s = .next t ∧ (t.rxp k p).state = .closed
            ∧ (t.rxp k p).items = [] ∧ t.xfer i = none ∧ Told s t k .rxpClosed 255 (pairDetail p 0)))
    ∧ (∀ v, 1 ≤ v → v < 8192 → (s.rxp k p).state = .closed ∨ v ≤ (s.rxp k p).window → ∃ t,
        exec (.rxpThresholdWrite k p v) s = .next t
          ∧ t.rxp k p = { s.rxp k p with threshold := v, above := decide (v ≤ (s.rxp k p).level) }
          ∧ Only (fun q => q ∈ [.crew k]) s t)
    ∧ ((s.rxp k p).state ≠ .closed → s.masked 0 11 = false → ∃ t, exec (.cellQueueReset (.port k p) false) s = .next t ∧ (t.rxp k p).items = []
        ∧ (t.ctx (s.rxp k p).ctx).rsNext = true ∧ t.cells.mismatch = satAdd 0xFFFF s.cells.mismatch 1
        ∧ Told s t k .cellQueueReset (s.ctx (s.rxp k p).ctx).trunk ((s.rxp k p).ctx + 16384 + p.val * 131072))

/-! ### Device time (chapter 13) -/

/-- R413, R414, R418, R421, R422: at a whole second the sample of the selected REFPPS source below 50 µs drives the loop; a
larger one that is late prepares a forward step; one that is early slews where no backstep is allowed; a step prepared
is applied; in UNSET a set that waits becomes device time, and the state is LOCKED where a source is valid, else FREE_RUN;
while device time stands nothing happens.
Completes (each answers a next state, by conditions on the state and the operands alone): `timeSecond`. -/
def Obligations.SecondsDriveTheLoop : Prop :=
  (∀ s : State, eventsDelivered s → s.tim.running = false → exec .timeSecond s = .next s)
  ∧ (∀ (th : Rat) (s : State), eventsDelivered s → s.tim.running = true → s.tim.ns ≤ s.tim.nextSecond * nsPerSecond →
      s.tim.state = .locked → s.tim.source = 1 → s.tim.select = 1 → s.tim.valid2 = s.partnerOk → s.tim.step = none →
      s.tim.ppsTheta = some th →
      ∃ t, exec .timeSecond s = .next t ∧ t.tim.ns = s.tim.nextSecond * nsPerSecond ∧ t.tim.nextSecond = s.tim.nextSecond + 1
        ∧ t.tim.state = .locked ∧ t.tim.ppsTheta = none
        ∧ (absR th < 50000 →
            t.tim.integ = limitRate (s.tim.integ - th / ((2 ^ s.tim.ki : Nat) : Rat))
            ∧ t.tim.rate = limitRate (t.tim.integ - th / ((2 ^ s.tim.kp : Nat) : Rat)) ∧ t.tim.slewing = false
            ∧ t.tim.step = none)
        ∧ (50000 ≤ absR th → th < 0 → t.tim.step = some (-th) ∧ t.tim.rate = s.tim.rate)
        ∧ (50000 ≤ absR th → 0 < th → s.tim.allowBack = false → t.tim.slewing = true ∧ t.tim.rate = -200000)
        ∧ Only (fun p => p ∈ [.tim, .freeCtr]) s t)
  ∧ (∀ (d : Rat) (s : State), s.tim.running = true → s.tim.ns ≤ s.tim.nextSecond * nsPerSecond → s.tim.state ≠ .unset →
      s.tim.select = s.tim.source → s.tim.source ≠ 0 → s.tim.valid2 = s.partnerOk → s.tim.step = some d →
      ∃ t, exec .timeSecond s = .next t ∧ t.tim.ns = (((s.tim.nextSecond * nsPerSecond : Nat) : Int) + d.floor).toNat
        ∧ t.tim.step = none ∧ t.tim.steps = satAdd 0xFFFF s.tim.steps 1 ∧ t.tim.nextBoundary = t.tim.ns)
  ∧ (∀ s : State, s.tim.running = true → s.tim.ns ≤ s.tim.nextSecond * nsPerSecond → s.tim.state = .unset →
      s.tim.setWait = true → s.tim.valid2 = s.partnerOk →
      ∃ t, exec .timeSecond s = .next t ∧ t.tim.ns = s.tim.setHi.toNat * 0x100000000 + s.tim.setLo.toNat
        ∧ t.tim.setWait = false ∧ t.tim.state = (if s.tim.anyValid = true then .locked else .freeRun))

/-- R410, R411, R412, R416, R417, R418: a REFPPS edge within 1 ms of its second counts and gives the offset from the nearest
whole second, three in a row make the source valid; one out of place is rejected and counted; a source whose time without a
good edge is over, with none left, puts LOCKED into VIGIL, and VIGIL past its limit goes into FREE_RUN; a manager sample is
valid at once; a set waits while UNSET and is refused later.
R423, R425, R426, R435: a read of TIM_NOW_LO returns the low half and latches the rest from the same instant; the
pulse starts once, rises once for each of its seconds, at that second less TPULSE_DELAY, at least 500 ms of elapsed time
apart (else it is skipped and told) and falls after its width.
Completes (each answers a next state, by conditions on the state and the operands alone): `refppsEdge`,
`refValidityTimeout`, `vigilLimitExpired`, `timeSet`, `mgrSampleWrite`, `timNowRead`, `pulseStart`, `tpulseRise`,
`tpulseFall`. -/
def Obligations.TimeReferencesPulsesAndReads : Prop :=
  ((∀ (stamp p : Int) (s : State), eventsDelivered s → s.tim.running = true → s.tim.ppsLast = some p → s.tim.ppsBad < 2 →
      (999000000 ≤ stampNs (stamp - p) → stampNs (stamp - p) ≤ 1001000000 → ∃ t, exec (.refppsEdge stamp) s = .next t
        ∧ t.tim.ppsGood = s.tim.ppsGood + 1 ∧ t.tim.ppsBad = 0 ∧ t.tim.ppsLast = some stamp
        ∧ (2 ≤ s.tim.ppsGood → t.tim.valid1 = true) ∧ (s.tim.ppsGood < 2 → t.tim.valid1 = s.tim.valid1)
        ∧ ∃ (k : Int) (th : Rat), t.tim.ppsTheta = some th ∧ -500000000 ≤ th ∧ th < 500000000
            ∧ th = stampNs stamp - ((s.calEff 20 : Int) : Rat) - ((k * 1000000000 : Int) : Rat))
      ∧ (stampNs (stamp - p) < 999000000 ∨ 1001000000 < stampNs (stamp - p) → exec (.refppsEdge stamp) s = .next { s with tim := { s.tim with
          ppsBad := s.tim.ppsBad + 1, ppsGood := 0, ppsRejected := satAdd 0xFFFF s.tim.ppsRejected 1 } }))
  ∧ (∀ (stamp : Int) (s : State), s.tim.running = true → 2 ≤ s.tim.ppsBad → ∃ t, exec (.refppsEdge stamp) s = .next t
      ∧ t.tim.ppsGood = 1 ∧ t.tim.ppsBad = 0 ∧ t.tim.ppsLast = some stamp)
  ∧ (∀ (u : Tim) (s : State), s.tim.valid1 = true → s.tim.valid3 = false → s.partnerOk = false → s.tim.state = .locked →
      s.tim.elapsedTo (s.tim.ppsSeen + 1500000000) = some u →
      ∃ t, exec (.refValidityTimeout .refpps) s = .next t ∧ t.tim.valid1 = false ∧ t.tim.source = 0 ∧ t.tim.state = .vigil
        ∧ t.tim.vigilT = 0 ∧ t.tim.ns = u.ns)
  ∧ (∀ (u : Tim) (s : State), s.tim.valid1 = false → s.tim.valid3 = true → s.partnerOk = false → s.tim.state = .locked →
      s.tim.elapsedTo (s.tim.mgrSeen + 4000000000) = some u →
      ∃ t, exec (.refValidityTimeout .manager) s = .next t ∧ t.tim.valid3 = false ∧ t.tim.source = 0 ∧ t.tim.state = .vigil
        ∧ t.tim.vigilT = 0 ∧ t.tim.ns = u.ns)
  ∧ (∀ s : State, eventsDelivered s →
      (s.tim.elapsedTo (s.tim.ppsSeen + 1500000000) = none → exec (.refValidityTimeout .refpps) s = .next s)
      ∧ (s.tim.elapsedTo (s.tim.mgrSeen + 4000000000) = none → exec (.refValidityTimeout .manager) s = .next s)
      ∧ exec (.refValidityTimeout .partner) s = .next s)
  ∧ (∀ (e : Nat) (s : State), e = s.tim.vigilAt + max 1 s.tim.vigilLimit * nsPerSecond → s.tim.state = .vigil →
      (s.tim.running = true → e ≤ max s.tim.ns s.tim.nextBoundary → ∃ t, exec .vigilLimitExpired s = .next t
        ∧ t.tim.state = .freeRun ∧ t.tim.rate = s.tim.held ∧ t.tim.ns = max s.tim.ns e)
      ∧ (eventsDelivered s → max s.tim.ns s.tim.nextBoundary < e → exec .vigilLimitExpired s = .next s))
  ∧ (∀ (v : Word) (s : State), s.responds .tim = true → ∃ t, exec (.mgrSampleWrite v) s = .next t ∧ t.tim.valid3 = true
        ∧ t.tim.mgrTheta = some ((signed 32 v.toNat : Int) : Rat) ∧ t.tim.mgrSeen = s.tim.elapsed ∧ t.tim.ns = s.tim.ns)
  ∧ (∀ s : State, eventsDelivered s → s.responds .tim = true →
      (s.tim.state = .unset → exec .timeSet s = .next { s with tim := { s.tim with setWait := true } })
      ∧ (s.tim.state ≠ .unset → exec .timeSet s = .next (s.told 0 .cfgReject 255 0x240038))))
  ∧ (∀ s : State, eventsDelivered s →
    (s.responds .tim = true → exec .timNowRead s = .next { s with
        tim := { s.tim with
          latchHi := BitVec.ofNat 32 (s.tim.ns / 2 ^ 32), latchFrac := BitVec.ofNat 16 (s.tim.sub / 2 ^ 16) },
        out := s.out ++ [.readReply (BitVec.ofNat 32 s.tim.ns)] })
    ∧ (s.responds .tim = true → s.tim.pulseStart = false → exec .pulseStart s = .next { s with tim := { s.tim with
        pulseStart := true, pulseFirst := (s.tim.ns + 500000000 + 999999999) / nsPerSecond } })
    ∧ (∀ (k : Nat) (u : Tim), k = s.pulseSecond → s.tim.pulseStart = true →
        s.tim.pulseRunning = true ∨ s.tim.pulseFirst ≤ k → s.tim.pulseHigh = false → s.tim.pulseDone ≠ some k →
        s.tim.ns ≤ s.pulseAt k + 10 → s.tim.upTo (s.pulseAt k) = some u →
        ((∀ e, s.tim.pulseLast = some e → e + 500000000 ≤ u.elapsed) → exec .tpulseRise s = .next { s with
          tim := { u with
            pulseHigh := true, pulseRunning := true, pulseLast := some u.elapsed, pulseDone := some k,
            pulseWidthNow := clampWidth s.tim.pulseWidth },
          out := s.out ++ [.tpulse true] })
        ∧ (∀ e, s.tim.pulseLast = some e → u.elapsed < e + 500000000 → exec .tpulseRise s = .next
            ({ s with tim := { u with pulseDone := some k } }.told 0 .pulseSkipped 255 0)))
    ∧ (s.tim.pulseStart = false ∨ s.tim.pulseDone = some s.pulseSecond → exec .tpulseRise s = .next s)
    ∧ (∀ v, v = s.tim.elapsedTo (s.tim.pulseLast.getD 0 + s.tim.pulseWidthNow * 1000) → s.tim.pulseHigh = true →
        (∀ u, v = some u → exec .tpulseFall s = .next { s with
          tim := { u with pulseHigh := false }, out := s.out ++ [.tpulse false] })
        ∧ (v = none → exec .tpulseFall s = .next s))
    ∧ (s.tim.pulseHigh = false → exec .tpulseFall s = .next s))



/-! ### The tandem pair (chapter 14) -/

/-- R436, R437, R439, R442, R443, R456, R471, R474, R475: the link is enabled and disabled; lanes come and go; a heartbeat
leaves at its offset, in a block with its channel's next number on the next lane, counts only in its window, and its
misses count; the third loses the partner, and a standby mirrored at the last heartbeat is due to change over; a PAIR
block is judged by role, profile and structure; a block with a bad CRC or a code violation is counted and discarded.
Completes (each answers a next state, by conditions on the state and the operands alone): `tdmLinkEnable`,
`tdmClrStat`, `laneLock`, `laneLockLost`, `heartbeatSend`, `hbInEdge`, `rxHeartbeatBlock`, `heartbeatMiss`,
`tdmPartnerLost`, `rxPairBlock`. -/
def Obligations.PairLinkAndHeartbeat : Prop :=
  (∀ (on : Bool) (s : State), eventsDelivered s → s.responds .tdm = true →
      (s.tdm.enable = on → exec (.tdmLinkEnable on) s = .next s)
      ∧ (s.tdm.enable ≠ on → ∃ t, exec (.tdmLinkEnable on) s = .next t ∧ t.tdm.enable = on ∧ (on = false → t.tdm.pair = .down))
      ∧ exec .tdmClrStat s = .next { s with tdm := { s.tdm with hbRun := 0, hbTotal := 0, crcBad := 0, resends := 0 } })
  ∧ (∀ (i : Fin 4) (s : State), eventsDelivered s →
      (s.tdm.maskRx / 2 ^ i.val % 2 = 0 → (∃ t, exec (.laneLock i) s = .next t ∧ t.tdm.maskRx = s.tdm.maskRx + 2 ^ i.val)
        ∧ exec (.laneLockLost i) s = .next s)
      ∧ (s.tdm.maskRx / 2 ^ i.val % 2 = 1 → (∃ t, exec (.laneLockLost i) s = .next t ∧ t.tdm.maskRx = s.tdm.maskRx - 2 ^ i.val)
        ∧ exec (.laneLock i) s = .next s))
  ∧ (∀ s : State, eventsDelivered s → s.tdm.enable = true →
      (∃ t, exec .heartbeatSend s = .next t ∧ s.out <+: t.out
        ∧ .tdmHeartbeat (s.frame % 65536) s.straps.role s.tdm.active s.tdm.pair.code s.tdm.epoch
            ∈ t.out.drop s.out.length
        ∧ .tdmBlock s.tdm.nextLane 1 (Tab.get 0 s.tdm.txNum 1) [] ∈ t.out.drop s.out.length
        ∧ (s.frame % 1000 ≠ 0 → s.tdm.maskRx = 0 → t.tdm = { s.tdm with
            txLane := (s.tdm.nextLane + 1) % 4, txNum := Tab.put 0 1 ((Tab.get 0 s.tdm.txNum 1 + 1) % 4096) s.tdm.txNum })
        ∧ (s.pins.vddio33Ok = true → .hbPulse ∈ t.out.drop s.out.length) ∧ Only (fun p => p ∈ [.out, .tdm]) s t)
      ∧ (∀ off, (450 ≤ off ∧ off ≤ 550 → exec (.hbInEdge off) s = .next { s with tdm := { s.tdm with
            wireGot := true, hbGot := true, hbRun := 0, lost := false, mirroredAtHb := s.tdm.pair == .mirrored } }
          ∧ ∀ num a, exec (.rxHeartbeatBlock (.good num) ⟨s.frame, a⟩ off) s = .next { s with tdm := { s.tdm with
            blockGot := true, partnerActive := a, hbGot := true, hbRun := 0, lost := false,
            mirroredAtHb := s.tdm.pair == .mirrored } })
        ∧ (off < 450 ∨ 550 < off → exec (.hbInEdge off) s = .next s
          ∧ ∀ num f a, exec (.rxHeartbeatBlock (.good num) ⟨f, a⟩ off) s = .next s)
        ∧ ∀ f a, exec (.rxHeartbeatBlock .bad ⟨f, a⟩ off) s = .next { s with tdm := { s.tdm with
            crcBad := satAdd 0xFFFF s.tdm.crcBad 1 } })
      ∧ (s.tdm.hbGot = false → ∃ t, exec .heartbeatMiss s = .next t ∧ t.tdm = { s.tdm with
            hbRun := satAdd 255 s.tdm.hbRun 1, hbTotal := satAdd 0xFFFF s.tdm.hbTotal 1 }
          ∧ (s.tdm.hbRun = 0 → Told s t 0 .tdmHbMissed 255 0) ∧ Only (fun p => p ∈ [.tdm, .evt 0]) s t)
      ∧ (s.tdm.hbRun < 3 → exec .tdmPartnerLost s = .next s)
      ∧ (3 ≤ s.tdm.hbRun → s.tdm.lost = false → s.tdm.active = false → (s.tdm.fenceIn = false ∨ s.straps.role = true) →
          ∃ t, exec .tdmPartnerLost s = .next t ∧ t.tdm.lost = true ∧ t.tdm.partner = none ∧ t.tdm.paired = false
            ∧ (s.tdm.mirroredAtHb = true → t.tdm.changeoverDue = true)
            ∧ (s.tdm.mirroredAtHb = false → t.tdm.refused = true ∧ t.tdm.changeoverDue = s.tdm.changeoverDue)))
  ∧ (∀ (num : Fin 4096) (b : PairBlock) (s : State), eventsDelivered s →
      (s.tdm.enable = false ∨ s.tdm.maskRx = 0 → exec (.rxPairBlock ⟨.good num, b⟩) s = .next s)
      ∧ (s.tdm.enable = true → s.tdm.maskRx ≠ 0 → b.mask % 16 ≠ 0 → ∃ t, exec (.rxPairBlock ⟨.good num, b⟩) s = .next t
          ∧ t.tdm.partner = some b ∧ t.tdm.partnerActive = b.active ∧ t.tdm.maskTx = b.mask % 16
          ∧ t.tdm.isMatch = decide (b.bow ≠ s.straps.role ∧ b.bp = s.bpApplied ∧ b.digest = s.structDigest)
          ∧ (t.tdm.isMatch = true → t.tdm.paired = true) ∧ (t.tdm.isMatch = false → t.tdm.pair = .unpaired)))

/-- R437, R444, R448, R450, R454, R467, R469: a standby gathers a record's entries in the order of their blocks' numbers
and acknowledges it when its count, CRC and place are right, else asks for it again; an active unit that hears the oldest
acknowledged lets it go, and resends from the one refused; the partner's TIME block is answered with its stamps, the
answer to ours gives half the difference, and 50 µs of it is a skew; a bad block counts.
Completes (each answers a next state, by conditions on the state and the operands alone): `rxCatchEntry`,
`rxCatchClose`, `rxCatchAck`, `rxCatchNak`, `rxTimeBlock`. -/
def Obligations.CatchRecordsAreAcknowledged : Prop :=
  (∀ (num : Fin 4096) (e : CatchEntry) (s : State), eventsDelivered s → s.tdm.active = false →
      (s.tdm.pair = .joining ∨ s.tdm.pair = .mirrored →
        exec (.rxCatchEntry ⟨.good num, e⟩) s = .next { s with tdm := { s.tdm with
          rxEntries := s.tdm.rxEntries.take (blkPlace s.tdm.rxNums num)
            ++ e :: s.tdm.rxEntries.drop (blkPlace s.tdm.rxNums num),
          rxNums := s.tdm.rxNums.take (blkPlace s.tdm.rxNums num)
            ++ num.val :: s.tdm.rxNums.drop (blkPlace s.tdm.rxNums num) } }
        ∧ ((∀ x ∈ s.tdm.rxNums, blkAfter num x = true) → blkPlace s.tdm.rxNums num = s.tdm.rxNums.length)
        ∧ ((∀ x ∈ s.tdm.rxNums, blkAfter num x = false) → blkPlace s.tdm.rxNums num = 0))
      ∧ (s.tdm.pair ≠ .joining → s.tdm.pair ≠ .mirrored → exec (.rxCatchEntry ⟨.good num, e⟩) s = .next s)
      ∧ (s.tdm.enable = true → exec (.rxCatchEntry ⟨.bad, e⟩) s = .next { s with tdm := { s.tdm with
          crcBad := satAdd 0xFFFF s.tdm.crcBad 1 } }))
  ∧ (∀ (num : Fin 4096) (c : CatchClose) (f : Nat) (s : State), eventsDelivered s → s.tdm.active = false →
      s.tdm.pair = .joining ∨ s.tdm.pair = .mirrored → s.tdm.rxFrame = some f →
      (c.full = true ∨ c.frame = (f + 1) % 65536 → c.count = s.tdm.rxEntries.length → c.crc = recordCrc s.tdm.rxEntries →
        ∃ t, exec (.rxCatchClose ⟨.good num, c⟩) s = .next t ∧ .tdmAck c.frame ∈ t.out.drop s.out.length
          ∧ t.tdm.rxFrame = some c.frame ∧ t.tdm.rxNak = none ∧ t.tdm.rxEntries = [] ∧ t.tdm.rxNums = []
          ∧ t.tdm.rxRecord = s.tdm.rxEntries
          ∧ t.tdm.pair = (if c.full then .mirrored else s.tdm.pair)
          ∧ t.tdm.changeoverDue = (s.tdm.changeoverDue || c.handover))
      ∧ (c.full = true ∨ c.frame = (f + 1) % 65536 → c.count ≠ s.tdm.rxEntries.length ∨ c.crc ≠ recordCrc s.tdm.rxEntries →
          ∃ t, exec (.rxCatchClose ⟨.good num, c⟩) s = .next t ∧ .tdmNak c.frame ∈ t.out.drop s.out.length
            ∧ t.tdm.rxEntries = [] ∧ t.tdm.rxNums = [] ∧ t.tdm.rxNak = some c.frame ∧ t.tdm.rxFrame = s.tdm.rxFrame
            ∧ Only (fun p => p ∈ [.tdm, .out]) s t)
      ∧ (c.full = false → c.frame ≠ (f + 1) % 65536 →
          ∃ t, exec (.rxCatchClose ⟨.good num, c⟩) s = .next t ∧ .tdmNak ((f + 1) % 65536) ∈ t.out.drop s.out.length
            ∧ t.tdm.rxEntries = [] ∧ t.tdm.rxNums = [] ∧ t.tdm.rxNak = some ((f + 1) % 65536)
            ∧ t.tdm.rxFrame = s.tdm.rxFrame ∧ Only (fun p => p ∈ [.tdm, .out]) s t))
  ∧ (∀ (num : Fin 4096) (r : CatchRec) (l : List CatchRec) (s : State), eventsDelivered s → s.tdm.kept = r :: l →
      s.tdm.active = true → r.frame < 65536 →
      (∃ t, exec (.rxCatchAck ⟨.good num, r.frame⟩) s = .next t ∧ t.tdm.acked = r.frame ∧ t.tdm.fenceHold = false
        ∧ (s.tdm.enable = true → s.tdm.maskRx ≠ 0 → s.tdm.maskTx ≠ 0 → s.tdm.isMatch = true → s.tdm.partner.isSome = true →
            s.tdm.pair = .mirrored → s.tdm.fit = true → t.tdm.kept = l ∧ t.tdm.pair = .mirrored))
      ∧ (∀ f, f % 65536 ≠ r.frame → exec (.rxCatchAck ⟨.good num, f⟩) s = .next s)
      ∧ (∃ t, exec (.rxCatchNak ⟨.good num, r.frame⟩) s = .next t ∧ t.tdm.resends = satAdd 0xFFFF s.tdm.resends 1
          ∧ (∀ x ∈ r :: l, .tdmClose x.close ∈ t.out.drop s.out.length) ∧ t.tdm.kept = s.tdm.kept
          ∧ Only (fun p => p ∈ [.tdm, .out]) s t))
  ∧ (∀ (num : Fin 4096) (t1 t2 t3 t4 : Int) (st src : Nat) (s : State), s.tdm.enable = true →
      (∃ t th, exec (.rxTimeBlock (.good num) (.answer t1 t2 t3 t4) st src) s = .next t
        ∧ t.tim.partnerTheta = some th ∧ 2 * th = (((t1 - t2) + (t4 - t3) : Int) : Rat)
        ∧ t.tdm.skewed = (decide (50000 ≤ th) || decide (th ≤ -50000))
        ∧ t.tdm.partnerState = st % 4 + 4 * (src % 4))
      ∧ (eventsDelivered s → ∃ t, exec (.rxTimeBlock (.good num) (.ask t1 t2) st src) s = .next t
        ∧ t.out = s.out ++ [.tdmAnswer t1 t2 s.tim.ns, .tdmBlock s.tdm.nextLane 5 (Tab.get 0 s.tdm.txNum 5) []]
        ∧ Only (fun p => p ∈ [.tdm, .out]) s t))

/-- R452, R453, R454, R455, R456, R462, R464, R465, R466: a handover and a forced claim are taken where the rules allow
them and refused elsewhere; the fence input takes the drivers of the pair-fed trunks off; an unconfirmed claim quarantines
its trunk; a split trunk's relays are queued and answered, and eight reads in a row heal it.
Completes (each answers a next state, by conditions on the state and the operands alone): `handover`, `forceClaim`,
`rxRelayRequest`, `rxRelayResult`, `splitHealCheck`, `rxHealNotice`, `fenceInChange`, `claimFailed`. -/
def Obligations.ClaimsSplitsAndHeals : Prop :=
  (∀ s : State, eventsDelivered s → s.responds .tdm = true →
      (s.tdm.active = true → s.tdm.fenced = false → s.tdm.pair = .mirrored → (∀ n ∈ s.pairTrunks, (s.trk n).mode = .whole →
          s.saturatedSeg n = none) → exec .handover s = .next { s with tdm := { s.tdm with handover := true } })
      ∧ (s.tdm.active = false ∨ s.tdm.pair ≠ .mirrored → exec .handover s = .next (s.told 0 .cfgReject 255 0x280000))
      ∧ (s.tdm.active = true → exec .forceClaim s = .next s)
      ∧ (s.tdm.active = false → s.tdm.paired = false ∨ s.tdm.refused = true →
          (s.tdm.epochValid = false → exec .forceClaim s = .next (s.told 0 .cfgReject 255 0x280000))
          ∧ (s.tdm.epochValid = true → s.tdm.fenceIn = false ∨ s.straps.role = true → ∃ t, exec .forceClaim s = .next t
              ∧ t.tdm = { s.tdm with changeoverDue := true, fenceOut := true } ∧ Only (fun p => p ∈ [.tdm]) s t)))
  ∧ (∀ (low : Bool) (s : State), ∃ t, exec (.fenceInChange low) s = .next t ∧ t.tdm.fenceIn = low
      ∧ (low = true → (s.straps.role = false ∨ s.tdm.fenceOut = false) → ∀ n, n < 8 → s.pairFed n = true → (t.trk n).dtxen = false)
      ∧ (low = true → s.straps.role = true → s.tdm.fenceOut = false → s.tdm.active = true → t.tdm.fenced = true))
  ∧ (∀ (n : Fin 8) (s : State), eventsDelivered s → ((s.trk n).claiming = true → 3 ≤ (s.trk n).claimTries →
        (s.trk n).slots.all (fun x => x.purpose != .claimConfirm) = true → (s.trk n).quarantined = false →
        ∃ t, exec (.claimFailed n) s = .next t ∧ (t.trk n).quarantined = true ∧ (t.trk n).claiming = false
          ∧ (t.trk n).dtxen = false ∧ (t.trk n).state = .fault)
      ∧ ((s.trk n).claiming = false → exec (.claimFailed n) s = .next s))
  ∧ (∀ (num : Fin 4096) (r : RelayReq) (s : State), eventsDelivered s →
      (s.isPartner r.trunk = true → (s.trk r.trunk).relays.length < 16 →
        ∃ t, exec (.rxRelayRequest ⟨.good num, r⟩) s = .next t
          ∧ t.trk r.trunk = { s.trk r.trunk with relays := (s.trk r.trunk).relays ++ [r] }
          ∧ Only (fun p => p ∈ [.trk r.trunk]) s t)
      ∧ (s.isPartner r.trunk = false → exec (.rxRelayRequest ⟨.good num, r⟩) s = .next s))
  ∧ (∀ (num : Fin 4096) (r : RelayRes) (s : State), eventsDelivered s →
      (s.relayedTxn r = none → exec (.rxRelayResult ⟨.good num, r⟩) s = .next s)
      ∧ (∀ y, s.relayedTxn r = some y → r.id < 16 → r.ptype = 0 → y.purpose = .measure → 4 ≤ y.attempt →
          ∃ t, exec (.rxRelayResult ⟨.good num, r⟩) s = .next t
            ∧ t.trk r.trunk = { s.trk r.trunk with relayed := (s.trk r.trunk).relayed.filter (fun x => x.slot != r.id) }
            ∧ Only (fun p => p ∈ [.trk r.trunk]) s t))
  ∧ (∀ (n : Fin 8) (up : Bool) (s : State), eventsDelivered s →
      (s.isPartner n = true → (s.trk n).mode = .split → (s.trk n).splitAt < s.frame → (s.frame - (s.trk n).splitAt) % 128 = 0 →
        ∃ t, exec (.splitHealCheck n up) s = .next t ∧ (t.trk n).healClean = (if up then (s.trk n).healClean + 1 else 0)
          ∧ (up = true → 7 ≤ (s.trk n).healClean → (t.trk n).mode = .healing ∧ (t.trk n).healAt = some s.frame
              ∧ t.out = s.out ++ [.tdmHeal n, .tdmBlock s.tdm.nextLane 4 (Tab.get 0 s.tdm.txNum 4) []])
          ∧ (up = false ∨ (s.trk n).healClean < 7 → (t.trk n).mode = .split ∧ t.out = s.out))
      ∧ (s.isPartner n = false → exec (.splitHealCheck n up) s = .next s)
      ∧ ((s.trk n).mode = .split → s.tdm.active = true → ∀ num, ∃ t, exec (.rxHealNotice ⟨.good num, n⟩) s = .next t
          ∧ t.trk n = { s.trk n with mode := .healing, healAt := some s.frame, claimAt := some (s.frame + 2) }
          ∧ Only (fun p => p ∈ [.trk n]) s t)
      ∧ ((s.trk n).mode ≠ .split → ∀ num, exec (.rxHealNotice ⟨.good num, n⟩) s = .next s))

/-! ### Probes, readmission and the urgent limit (chapter 15) -/

/-- R29, R483, R484, R485: a probe frame's clean probe counts and any other sets the count to 0; after eight in a row a
quarantined trunk runs again with its counter 0, driven where this unit may drive it, and a pruned subtree is no longer
pruned; an urgent transfer cut off up to the hold in force ends URGENT_EXPIRED, and one below it stays.
Completes (each answers a next state, by conditions on the state and the operands alone): `lineProbe`, `readmission`,
`urgentExpired`. -/
def Obligations.ProbesReadmissionAndUrgentLimit : Prop :=
  (∀ (n : Fin 8) (seen : ProbeSeen) (s : State), eventsDelivered s →
      ((s.trk n).quarantined = false → exec (.lineProbe n 0 seen) s = .next s ∧ exec (.readmission n 0) s = .next s)
      ∧ ((s.trk n).quarantined = true → s.probeFrame (s.trk n).quarAt = true →
          exec (.lineProbe n 0 seen) s = .next (s.updTrk n (fun t => { t with
            clean := cleanCount t.clean (seen.locked && seen.kept && !seen.lfault && !t.lfault) })))
      ∧ ((s.trk n).quarantined = true → (s.trk n).clean < 8 → exec (.readmission n 0) s = .next s)
      ∧ ((s.trk n).quarantined = true → 8 ≤ (s.trk n).clean → ∃ t, exec (.readmission n 0) s = .next t
          ∧ (t.trk n).quarantined = false ∧ (t.trk n).tec = 0 ∧ (t.trk n).dtxen = s.mayDrive n
          ∧ (t.trk n).state = (if s.pairFed n = true ∧ s.tdm.active = false ∧ (s.trk n).mode = .whole then .parked else .running)
          ∧ t.out = s.out ++ (if s.mayDrive n = true then [.signal n .idle] else []) ∧ Told s t 0 .subtreeReadmitted n 0
          ∧ Only (fun p => p ∈ [.trk n, .out, .evt 0]) s t))
  ∧ (∀ (n : Fin 8) (k : Nat) (seen : ProbeSeen) (s : State), eventsDelivered s → 1 ≤ k →
      (((s.trk n).hub k).pruned = false → exec (.lineProbe n k seen) s = .next s ∧ exec (.readmission n k) s = .next s)
      ∧ (((s.trk n).hub k).pruned = true → (s.trk n).quarantined = false →
          s.probeFrame ((s.trk n).hub k).prunedAt = true → exec (.lineProbe n k seen) s = .next (s.updTrk n (·.updHub k
            (fun h => { h with clean := cleanCount h.clean (h.probeUp && s.reach n k 0 == .ok) }))))
      ∧ (((s.trk n).hub k).pruned = true → (s.trk n).quarantined = false → 8 ≤ ((s.trk n).hub k).clean →
          ∃ t, exec (.readmission n k) s = .next t ∧ ((t.trk n).hub k).pruned = false
            ∧ Told s t 0 .subtreeReadmitted n k))
  ∧ (∀ c : Nat, cleanCount c true = min 8 (c + 1) ∧ cleanCount c false = 0)
  ∧ (∀ (i : Fin 4096) (k r m : Nat) (x : Xfer) (s : State), s.xfer i = some x → x.urgent = true → x.ended = false →
      (s.targetOf x).1.cut = true → x.origin = .ring k r m →
      (max 1 (s.trk x.trunk).urgentHold.inForce ≤ x.hold → ∃ t y, exec (.urgentExpired i) s = .next t
        ∧ t.xfer i = some y ∧ y.ended = true ∧ y.items = [] ∧ t.ring k r = (s.ring k r).outcome m stUrgentExpired x.moved)
      ∧ (eventsDelivered s → x.hold < max 1 (s.trk x.trunk).urgentHold.inForce → exec (.urgentExpired i) s = .next s))

/-! ### Event rings, vectors and register writes (chapters 15 and 16) -/

/-- R393, R489, R490, R492, R495, R545: a ring is enabled with its counts 0, or the write refused; a head within R304 is
taken and any other told; a record goes out under a grant of the completion writer's with its phase and lost mark, and its
vector's message then waits for a grant of its own; a holdoff that ends and a vector unmasked bring out what is pending.
Completes (each answers a next state, by conditions on the state and the operands alone): `evtEnable`, `evtDisable`,
`evtHeadWrite`, `eventRecordWrite`, `msixHoldoffExpiry`, `msixVectorUnmask`. -/
def Obligations.EventRingsAndVectors : Prop :=
  (∀ (fn : Fin 64) (s : State), eventsDelivered s → s.evtOk fn = true →
      ((s.crew fn).evt.enabled = true → exec (.evtEnable fn) s = .next s)
      ∧ ((s.crew fn).evt.enabled = false → (s.crew fn).evt.sizeOk = true → ∃ t, exec (.evtEnable fn) s = .next t
          ∧ (t.crew fn).evt = { (s.crew fn).evt with enabled := true, head := 0, tail := 0 }
          ∧ Only (fun p => p ∈ [.evt fn]) s t)
      ∧ ((s.crew fn).evt.enabled = false → (s.crew fn).evt.sizeOk = false →
          exec (.evtEnable fn) s = .next (s.told fn .cfgReject 255 (evtOffset fn 0x18 + fn.val * 0x1000000)))
      ∧ ((s.crew fn).evt.enabled = false → exec (.evtDisable fn) s = .next s)
      ∧ ((s.crew fn).evt.enabled = true → ∃ t, exec (.evtDisable fn) s = .next t ∧ (t.crew fn).evt.enabled = false
          ∧ (t.crew fn).evt.backlog = ((s.crew fn).evt.queue ++ (s.crew fn).evt.backlog).take 64
          ∧ (t.crew fn).evt.queue = []
          ∧ Only (fun p => p ∈ [.evt fn]) s t)
      ∧ ∀ h : Word, ((s.crew fn).evt.enabled = false → exec (.evtHeadWrite fn h) s = .next s)
        ∧ ((s.crew fn).evt.enabled = true →
            (headOk h (s.crew fn).evt.head (s.crew fn).evt.tail (s.crew fn).evt.sizeLog2 = true →
              ∃ t, exec (.evtHeadWrite fn h) s = .next t ∧ (t.crew fn).evt = { (s.crew fn).evt with head := h }
                ∧ Only (fun p => p ∈ [.evt fn]) s t)
            ∧ (headOk h (s.crew fn).evt.head (s.crew fn).evt.tail (s.crew fn).evt.sizeLog2 = false →
              exec (.evtHeadWrite fn h) s = .next (s.told fn .ringIndexInvalid 255 (pairDetail 0 2)))))
  ∧ (∀ (fn : Fin 64) (x : Event) (q : List Event) (s : State), eventsDelivered s → (s.crew fn).evt.enabled = true →
      (s.crew fn).bme = true → (s.crew fn).evt.used < 2 ^ (s.crew fn).evt.sizeLog2 → (s.crew fn).evt.queue = x :: q →
      (s.granted 2 33 = false → exec (.eventRecordWrite fn) s = .next s)
      ∧ (s.granted 2 33 = true → ((s.crew fn).vec (s.crew fn).evt.vector).holdEnd = none →
      ∃ t, exec (.eventRecordWrite fn) s = .next t
        ∧ (t.crew fn).evt = { (s.crew fn).evt with queue := q, tail := (s.crew fn).evt.tail + 1, lostFlag := false }
        ∧ t.granted 2 33 = false ∧ ((t.crew fn).vec (s.crew fn).evt.vector).pba = true
        ∧ t.pci.queue = s.pci.queue ++ (if ((s.crew fn).vec (s.crew fn).evt.vector).masked = true
            ∨ s.pci.hasMessage fn (s.crew fn).evt.vector = true then [] else [⟨33, fn, .msix (s.crew fn).evt.vector⟩])
        ∧ Only (fun p => p ∈ [.evt fn, .crew fn, .pci, .arb 2, .out]) s t
        ∧ t.out = s.out ++ [.hostWrite fn ((s.crew fn).evt.base + BitVec.ofNat 64
              (16 * ((s.crew fn).evt.tail.toNat % 2 ^ (s.crew fn).evt.sizeLog2)))
            (x.bytes16 (phaseOf (s.crew fn).evt.tail (s.crew fn).evt.sizeLog2) (s.crew fn).evt.lostFlag)]))
  ∧ (∀ (fn : Fin 64) (v : Fin 32) (s : State), eventsDelivered s →
      (((s.crew fn).vec v).holdEnd.bind s.tim.upTo = none → exec (.msixHoldoffExpiry fn v) s = .next s)
      ∧ (∀ u, ((s.crew fn).vec v).holdEnd.bind s.tim.upTo = some u → ((s.crew fn).vec v).masked = false →
          (s.crew fn).bme = true → ∃ t, exec (.msixHoldoffExpiry fn v) s = .next t ∧ t.tim = u
            ∧ ((t.crew fn).vec v).holdEnd = none ∧ ((t.crew fn).vec v).causes = 0
            ∧ (0 < ((s.crew fn).vec v).causes → ((t.crew fn).vec v).pba = true
                ∧ (s.pci.hasMessage fn v = false → t.pci.queue = s.pci.queue ++ [⟨33, fn, .msix v⟩]))
            ∧ (((s.crew fn).vec v).causes = 0 → t.pci = s.pci)
            ∧ Only (fun p => p ∈ [.tim, .crew fn, .pci]) s t)
      ∧ ∃ t, exec (.msixVectorUnmask fn v) s = .next t ∧ ((t.crew fn).vec v).masked = false
        ∧ (((s.crew fn).vec v).pba = true → (s.crew fn).bme = true → s.pci.hasMessage fn v = false →
            t.pci.queue = s.pci.queue ++ [⟨33, fn, .msix v⟩])
        ∧ (((s.crew fn).vec v).pba = false → t.pci = s.pci) ∧ Only (fun p => p ∈ [.crew fn, .pci]) s t)

/-- R5, R16, R501, R502, R505, R509, R512: a poisoned write is discarded and logged, a misaligned one and a word with a
byte disabled are ignored, a longer one goes word by word upwards; a class-Q field is taken while its owner is quiet,
told where a change is dropped; a class-F field is written and waits; a 1 written to a W1C bit clears it.
Completes (each answers a next state, by conditions on the state and the operands alone): `registerWrite`. -/
def Obligations.RegisterWritesFollowTheirClass : Prop :=
  (∀ (fn : Fin 64) (bar : Fin 3) (off : Nat) (l : List WriteWord) (s : State), eventsDelivered s →
      (l.any (·.poisoned) = true → ∃ t, exec (.registerWrite fn bar off l) s = .next t
        ∧ t.out = s.out ++ [.aer fn (BitVec.ofNat 64 off) .poisoned] ∧ (Tab.get 0 t.pci.aer fn).getLsbD 12 = true
        ∧ Only (fun p => p ∈ [.pci, .out]) s t)
      ∧ (l.any (·.poisoned) = false → off % 4 ≠ 0 → exec (.registerWrite fn bar off l) s = .next s)
      ∧ (l.any (·.poisoned) = false → l.all (fun w => w.enables != 0xF#4) = true →
          exec (.registerWrite fn bar off l) s = .next s))
  ∧ (∀ (fn : Fin 64) (bar : Fin 3) (off : Nat) (a b : Word) (s : State), off % 4 = 0 →
      exec (.registerWrite fn bar off [⟨a, 0xF#4, false⟩, ⟨b, 0xF#4, false⟩]) s
        = finish (wordWrite fn bar (off + 4) b (wordWrite fn bar off a s)))
  ∧ (∀ (v : Word) (s : State), eventsDelivered s → s.responds .rng = true → s.crewRuns 0 = true →
      ((s.ring 0 0).state = .disabled → ∃ t, exec (.registerWrite 0 0 0x140000 [⟨v, 0xF#4, false⟩]) s = .next t
        ∧ t.ring 0 0 = { s.ring 0 0 with base := setLo (s.ring 0 0).base v })
      ∧ ((s.ring 0 0).state ≠ .disabled → setLo (s.ring 0 0).base v ≠ (s.ring 0 0).base →
          exec (.registerWrite 0 0 0x140000 [⟨v, 0xF#4, false⟩]) s = .next (s.told 0 .cfgReject 255 0x140000)))
  ∧ (∀ (v : Word) (s : State), eventsDelivered s →
      (s.responds .cox = true → exec (.registerWrite 0 0 0xC0000 [⟨v, 0xF#4, false⟩]) s = .next { s with
        cox := { s.cox with mgrWeight := { s.cox.mgrWeight with written := v.toNat % 256 } } })
      ∧ (s.responds .clkPwr = true → exec (.registerWrite 0 0 0x20020 [⟨v, 0xF#4, false⟩]) s = .next { s with
        pwr := { s.pwr with cause := s.pwr.cause &&& ~~~(v.truncate 8) } })
      ∧ (s.responds .tim = true → exec (.registerWrite 0 0 0x240004 [⟨v, 0xF#4, false⟩]) s = .next { s with
        tim := { s.tim with vigilLimit := v.toNat % 65536 } }))

/-! ### The whole machine -/

/-- The command at the front of the queue runs with the rest of the queue. -/
def Obligations.StepRunsTheFrontCommand : Prop :=
  ∀ (c : Instr) (rest : List Instr) (s : State), step { s with pending := c :: rest } = exec c { s with pending := rest }

/-- R408 and the model's choice of log entry 7: on an empty queue one TCLK cycle passes. Device time, in steps of 2^-32
ns, gains 10 ns times 1 plus the rate to within one step, elapsed time 10 ns; while device time stands nothing moves. -/
def Obligations.AnIdleStepIsOneClockCycle : Prop :=
  ∀ s : State, s.pending = [] →
    (s.tim.running = false → step s = .next s)
    ∧ (s.tim.running = true → -200000 ≤ s.tim.rate → ∃ t, step s = .next t
        ∧ (((t.tim.ns * 2 ^ 32 + t.tim.sub : Nat) : Rat) - ((s.tim.ns * 2 ^ 32 + s.tim.sub : Nat) : Rat)
            < (10 * 2 ^ 32 : Rat) * (1 + s.tim.rate / 1000000000) + 1)
        ∧ ((10 * 2 ^ 32 : Rat) * (1 + s.tim.rate / 1000000000) - 1
            < ((t.tim.ns * 2 ^ 32 + t.tim.sub : Nat) : Rat) - ((s.tim.ns * 2 ^ 32 + s.tim.sub : Nat) : Rat))
        ∧ t.tim.sub < 2 ^ 32 ∧ t.tim.elapsed = s.tim.elapsed + 10 ∧ Only (fun p => p ∈ [.tim, .freeCtr]) s t)

/-- R8, R488: no command stops the block. Every command, in every state, answers a next state in which its events have
all been delivered and the queue is as it was. -/
def Obligations.EveryCommandGoesOn : Prop :=
  ∀ (c : Instr) (s : State), ∃ t, exec c s = .next t ∧ eventsDelivered t ∧ t.pending = s.pending

/-- R116, R83: from the end of the POR delay on the fuse shadow mirrors the fuses, and every step keeps it so; the
rollback counter never falls. -/
def Obligations.FuseShadowAndRollbackInvariant : Prop :=
  ∀ s t : State, shadowMirrors s → step s = .next t → shadowMirrors t ∧ s.fuse.rollback ≤ t.fuse.rollback

/-- Only resets, supplies, start-up, a fuse that blows, frame boundaries, whole seconds and register writes move the
foundations: every other command leaves the fuses, their shadow, the straps, the pins, the start-up stage, device time
and the frame count alone. -/
def Obligations.FoundationsMoveOnlyOnTheirEvents : Prop :=
  ∀ (c : Instr) (s : State), movesFoundations c = false → ∃ t, exec c s = .next t ∧ t.fuse = s.fuse ∧ t.shadow = s.shadow
    ∧ t.straps = s.straps ∧ t.pins = s.pins ∧ t.pwr.stage = s.pwr.stage ∧ t.tim.ns = s.tim.ns ∧ t.frame = s.frame

/-- State.reset is the end of S1 (log 3): only PD0, PD1, PD21 and PD22 are on, no image is applied, every trunk is
stopped, every crew absent, every ring, queue, channel and port disabled, device time 0 and UNSET, the queue empty; and it
meets the invariants.  R521: the JTAG port comes out of a power-on reset in its reset state, its first data scan the
identification code, which for revision A0 is 0x0484_0B6F. -/
def Obligations.ResetIsTheEndOfS1 : Prop :=
  (∀ d, State.reset.isOn d = decide (d ∈ [0, 1, 21, 22])) ∧ State.reset.img.state = .loading ∧ State.reset.img.applied = none
  ∧ (∀ n, (State.reset.trk n).state = .stopped) ∧ (∀ k, (State.reset.crew k).st = .absent)
  ∧ (∀ k r, (State.reset.ring k r).state = .disabled ∧ (State.reset.cq k r).enabled = false
      ∧ (State.reset.rxp k r).state = .closed)
  ∧ (∀ c, (State.reset.ch c).state = .disabled ∧ (State.reset.ctx c).used = false) ∧ State.reset.tim.ns = 0
  ∧ State.reset.tim.state = .unset ∧ State.reset.frame = 0 ∧ State.reset.pending = [] ∧ eventsDelivered State.reset
  ∧ shadowMirrors State.reset ∧ backlogBounded State.reset ∧ tagsBounded State.reset
  ∧ State.reset.jtag.tap = .testLogicReset
  ∧ ∀ s : State, s.shadow.siliconRev = 0xA0 → s.idcode = 0x04840B6F#32
      ∧ (s.jtag = {} → s.captured = (List.range 32).map s.idcode.getLsbD)

/-! ### Responses (chapters 5, 7 and 11) -/

/-- R162, R164, R364, R203: a periodic sample in step is written into the endpoint's buffer whole, with the frame and
the time, and E is inverted; one out of step is discarded and counted, and E stays.  A hub's records are acted on: an
ATTACH queues its port, and a DETACH clears the attached flag of its node (R214).  An ATTACH of a port that is to be
handled again is not queued (the model's choice, log 54).
Completes (each answers a next state, by conditions on the state and the operands alone): `rxDataP`, `hubEventSample`. -/
def Obligations.PeriodicSamplesAreTaken : Prop :=
  (∀ (n : Fin 8) (slot : Fin 32) (p : RxPkt) (y : Txn) (tg : Bool) (c : Nat) (s : State), eventsDelivered s →
      (s.trk n).inSlotNo slot = some y → y.kind = .tokenP tg → y.purpose = .occurrence → s.occCtx n y = some c →
      s.judge n y p = .good → hdrType p.hdr = ptDataP → (s.ctx c).alm.hubEv = false →
      ∃ t, exec (.rxDataP n slot p) s = .next t
        ∧ (t.trk n).slots = (s.trk n).slots.filter (fun x => x.slot != y.slot)
        ∧ (s.isExchange y = true → (t.trk n).exchanges = (s.trk n).exchanges ++ [⟨y.hop, true⟩])
        ∧ ((hdrSq p.hdr % 2 == 1) = (s.ctx c).e → t.ctx c = { s.ctx c with
              e := !(s.ctx c).e, rsNext := false, occ := {},
              alm := if (s.ctx c).alm.present then { (s.ctx c).alm with lastStatus := stOk } else (s.ctx c).alm,
              epm := { (s.ctx c).epm with
                state := .full, data := p.payload, frame := s.frame, stamp := s.tim.ns,
                lost := (s.ctx c).epm.lost || (s.ctx c).epm.state == .full,
                overwritten := if (s.ctx c).epm.state == .full then satAdd 0xFFFF (s.ctx c).epm.overwritten 1
                  else (s.ctx c).epm.overwritten } })
        ∧ ((hdrSq p.hdr % 2 == 1) ≠ (s.ctx c).e → (t.ctx c).epm = (s.ctx c).epm ∧ (t.ctx c).e = (s.ctx c).e
            ∧ (t.ctx c).rsNext = true ∧ (t.trk n).resyncs = satAdd 0xFFFF (s.trk n).resyncs 1
            ∧ Told s t 0 .lineToggleResync n (y.ctx.getD 0))
        ∧ Only (fun q => q ∈ [.trk n, .ctx c, .evt 0] || q matches .ch _) s t)
  ∧ (∀ (n : Fin 8) (slot : Fin 32) (p : RxPkt) (y : Txn) (tg : Bool) (c : Nat) (port d0 d1 : Byte) (s : State),
      (s.trk n).inSlotNo slot = some y → y.kind = .tokenP tg → y.purpose = .occurrence → s.occCtx n y = some c →
      s.judge n y p = .good → hdrType p.hdr = ptDataP → (s.ctx c).alm.hubEv = true → (hdrSq p.hdr % 2 == 1) = (s.ctx c).e →
      (p.payload = [port, 0x01, d0, d1] → ((s.trk n).again.all fun x => !(x.1 == y.hub && x.2.1 == port.toNat)) = true →
        ∃ t, exec (.hubEventSample n slot p) s = .next t ∧ (t.ctx c).e = (!(s.ctx c).e) ∧ (t.ctx c).epm.state = .used
          ∧ (y.hub, port.toNat) ∈ (t.trk n).attachQ)
      ∧ (∀ i e, p.payload = [port, 0x02, d0, d1] → 1 ≤ y.hub → 1 ≤ port.toNat → port.toNat ≤ 15 →
        s.entryAt n y.hub port.toNat = some (i, e) → s.entry i = some e → e.attached = true → (s.trk n).attach = none →
        ∃ t f, exec (.hubEventSample n slot p) s = .next t ∧ t.entry i = some f ∧ f.attached = false ∧ f.addr = e.addr))

/-- R163, R160, R189, R366: an ACK of a periodic OUT inverts T and leaves the buffer USED; a NAK ends the occurrence
as OK and consumes nothing; a STALL halts the endpoint.  Each is a good exchange and frees its slot.  After a NAK or a
STALL the copy of an OUT stays, to go again with the same toggle (the model's reading of R163, log 35).
Completes (each answers a next state, by conditions on the state and the operands alone): `rxAck`, `rxNak`, `rxStall`. -/
def Obligations.HandshakesOfOccurrences : Prop :=
  ∀ (n : Fin 8) (slot : Fin 32) (p : RxPkt) (y : Txn) (c : Nat) (s : State), eventsDelivered s →
    (s.trk n).inSlotNo slot = some y → ((∃ tg, y.kind = .tokenP tg) ∨ ∃ tg b, y.kind = .dataP tg b) →
    y.purpose = .occurrence → s.occCtx n y = some c → s.judge n y p = .good →
    (hdrType p.hdr = ptAck → ∃ t, exec (.rxAck n slot p) s = .next t
      ∧ (t.trk n).slots = (s.trk n).slots.filter (fun x => x.slot != y.slot) ∧ (t.ctx c).t = (!(s.ctx c).t)
      ∧ (t.ctx c).e = (s.ctx c).e ∧ (t.ctx c).epm.pending = none ∧ (t.ctx c).epm.copy = none
      ∧ (t.ctx c).epm.state = (if (s.ctx c).epm.newer then (s.ctx c).epm.state else .used)
      ∧ (t.ctx c).halted = (s.ctx c).halted ∧ Only (fun q => q ∈ [.trk n, .ctx c, .tdm]) s t)
    ∧ (hdrType p.hdr = ptNak → ∃ t, exec (.rxNak n slot p) s = .next t
      ∧ (t.trk n).slots = (s.trk n).slots.filter (fun x => x.slot != y.slot)
      ∧ (s.isExchange y = true → (t.trk n).exchanges = (s.trk n).exchanges ++ [⟨y.hop, true⟩])
      ∧ t.ctx c = { s.ctx c with
          occ := {}, epm := { (s.ctx c).epm with copy := match y.kind with | .dataP _ b => some b | _ => (s.ctx c).epm.copy },
          alm := if (s.ctx c).alm.present then { (s.ctx c).alm with lastStatus := stOk } else (s.ctx c).alm }
      ∧ Only (fun q => q ∈ [.trk n, .ctx c]) s t)
    ∧ (hdrType p.hdr = ptStall → ∃ t, exec (.rxStall n slot p) s = .next t
      ∧ (t.trk n).slots = (s.trk n).slots.filter (fun x => x.slot != y.slot)
      ∧ t.ctx c = { s.ctx c with
          halted := true, occ := {},
          epm := { (s.ctx c).epm with copy := match y.kind with | .dataP _ b => some b | _ => (s.ctx c).epm.copy },
          alm := if (s.ctx c).alm.present then { (s.ctx c).alm with lastStatus := stStall } else (s.ctx c).alm }
      ∧ Only (fun q => q ∈ [.trk n, .ctx c]) s t)

/-- R165, R374: a BURST_ACK takes every packet before S as acknowledged, together with each whose bit is set, and moves the
oldest unacknowledged number on; an S more than eight beyond it is out of step and ends the transfer TOGGLE_RESYNC.
R167, R371, R376: a bulk IN packet in sequence enters the transfer's queue as an item, in cells of its own, and E goes on; a
later packet of the burst that is not in sequence is discarded and E stays.
Completes (each answers a next state, by conditions on the state and the operands alone): `rxDataB`, `rxBurstAck`. -/
def Obligations.BulkBurstsInOrder : Prop :=
  (∀ (n : Fin 8) (slot : Fin 32) (p : RxPkt) (y : Txn) (ps : List (Nat × Bool × List Byte)) (i c d : Nat) (x : Xfer)
    (k r m : Nat) (s : State), eventsDelivered s → (s.trk n).inSlotNo slot = some y → y.kind = .dataB ps →
    y.purpose = .transfer → y.xfer = some i → s.xfer i = some x → x.open = true → x.op = .bulkOut → x.ctx = some c →
    x.origin = .ring k r m → x.stopping = none → s.judge n y p = .good → hdrType p.hdr = ptBurstAck →
    d = (hdrSq p.hdr + 16 - (s.ctx c).outOld) % 16 →
    (d ≤ 8 → d < x.items.length → (x.items[d]?).map (·.acked) = some false →
      ∃ t z, exec (.rxBurstAck n slot p) s = .next t ∧ t.xfer i = some z
        ∧ z.items.map (·.data) = (x.items.drop d).map (·.data)
        ∧ z.items.map (·.acked) = (x.items.drop d).zipIdx.map (fun e =>
            e.1.acked || (decide (0 < e.2) && decide (hdrAux p.hdr / 2 ^ e.2 % 2 = 1)))
        ∧ (hdrAux p.hdr = 0 → (∀ it ∈ x.items.take d, it.acked = false) →
            z.bytes = x.bytes + ((x.items.take d).map (·.len)).sum)
        ∧ z.attempts = 0 ∧ z.ended = false
        ∧ t.ctx c = { s.ctx c with outOld := ((s.ctx c).outOld + d) % 16, rsNext := false }
        ∧ Only (fun q => q ∈ [.trk n, .ctx c, .xfers, .cells]) s t)
    ∧ (8 < d →
      ∃ t, exec (.rxBurstAck n slot p) s = .next t ∧ (∀ z, t.xfer i = some z → z.ended = true)
        ∧ (t.ctx c).rsNext = true ∧ (t.ctx c).outOld = (s.ctx c).outOld
        ∧ (t.trk n).resyncs = satAdd 0xFFFF (s.trk n).resyncs 1 ∧ Told s t 0 .lineToggleResync n (y.ctx.getD 0)))
  ∧ (∀ (n : Fin 8) (slot : Fin 32) (p : RxPkt) (y : Txn) (e m i c k r j : Nat) (x : Xfer) (s : State), eventsDelivered s →
    (s.trk n).inSlotNo slot = some y → y.kind = .tokenB e m → y.purpose = .transfer → y.xfer = some i → y.broken = false →
    y.got < m → s.xfer i = some x → x.open = true → x.op = .bulkIn → x.ctx = some c → x.origin = .ring k r j →
    s.judge n y p = .good → hdrType p.hdr = ptDataB →
    (hdrSq p.hdr = (s.ctx c).inE → hdrTe p.hdr = false → x.got + p.payload.length < x.length →
      x.ptrs.tailOk = true → x.ptrs.broken = false →
      ∃ t z, exec (.rxDataB n slot p false) s = .next t ∧ t.xfer i = some z ∧ z.got = x.got + p.payload.length
        ∧ z.items.map (·.data) = x.items.map (·.data) ++ [p.payload] ∧ z.ended = false
        ∧ (∀ it, z.items.getLast? = some it → it.cells.length = cellsFor p.payload.length)
        ∧ z.credits = x.credits - cellsFor p.payload.length
        ∧ (t.ctx c).inE = ((s.ctx c).inE + 1) % 16
        ∧ (t.trk n).slots = (s.trk n).slots.map (fun w =>
            if w.slot = y.slot then { y with got := y.got + 1, broken := false, flushed := false } else w)
        ∧ Only (fun q => q ∈ [.trk n, .ctx c, .xfers, .cells, .freeCtr]) s t)
    ∧ (hdrSq p.hdr ≠ (s.ctx c).inE → 0 < y.got →
      ∃ t, exec (.rxDataB n slot p false) s = .next t ∧ t.xfer i = some x ∧ t.ctx c = s.ctx c
        ∧ (t.trk n).slots = (s.trk n).slots.map (fun w => if w.slot = y.slot then { y with broken := true, bad := true } else w)
        ∧ Only (fun q => q ∈ [.trk n, .cells, .freeCtr]) s t))

/-- R175, R427, R199, R453: the first valid HOP_RSP of a hub gives its delay; a confirmed claim is over; a hub's CLAIM
answer records its seal or its end; an answer that does not repeat what was asked is a line error.
Completes (each answers a next state, by conditions on the state and the operands alone): `rxHopRsp`, `rxClaim`. -/
def Obligations.HopAndClaimAnswers : Prop :=
  (∀ (n : Fin 8) (slot : Fin 32) (p : RxPkt) (y : Txn) (e rtt : Nat) (s : State), eventsDelivered s →
      (s.trk n).inSlotNo slot = some y → y.kind = .hopReq e → s.judge n y p = .good → hdrType p.hdr = ptHopRsp →
      (y.purpose = .measure → ((s.trk n).hub y.hub).dlyValid = false → 2000 + 2 * s.dtx n ≤ rtt * 5 →
        rtt * 5 ≤ 2000 + 2 * y.hop * 1600 + 2 * s.dtx n →
        ∃ t, exec (.rxHopRsp n slot p rtt) s = .next t ∧ ((t.trk n).hub y.hub).dlyValid = true
          ∧ ((t.trk n).hub y.hub).dly = (rtt * 5 - 2000) * 8 % 0x1000000
          ∧ (t.trk n).slots = (s.trk n).slots.filter (fun x => x.slot != y.slot) ∧ Only (fun q => q ∈ [.trk n]) s t)
      ∧ (y.purpose = .measure → rtt * 5 < 2000 + 2 * s.dtx n →
        ∃ t, exec (.rxHopRsp n slot p rtt) s = .next t ∧ (t.trk n).hubs = (s.trk n).hubs)
      ∧ (y.purpose = .claimConfirm → ∃ t, exec (.rxHopRsp n slot p rtt) s = .next t ∧ (t.trk n).claiming = false
          ∧ (t.trk n).claimConfirm = false ∧ Only (fun q => q ∈ [.trk n]) s t))
  ∧ (∀ (n : Fin 8) (slot : Fin 32) (p : RxPkt) (y : Txn) (e a : Nat) (s : State), eventsDelivered s →
      (s.trk n).inSlotNo slot = some y → y.kind = .claim e a → y.purpose = .seal →
      (s.judge n y p = .good → ∃ t, exec (.rxClaim n slot p) s = .next t
        ∧ ((t.trk n).hub y.hub).sealed = (a == 1) ∧ Only (fun q => q ∈ [.trk n]) s t)
      ∧ (pktError p = none → hdrAddr p.hdr = y.addr → hdrEp p.hdr = y.ep →
          p.payload ≠ [BitVec.ofNat 8 e, BitVec.ofNat 8 a, 0, 0] →
        ∃ t, exec (.rxClaim n slot p) s = .next t ∧ ((t.trk n).hub y.hub).sealed = ((s.trk n).hub y.hub).sealed
          ∧ (t.trk n).slots = (s.trk n).slots.filter (fun x => x.slot != y.slot)
          ∧ (s.isExchange y = true → (t.trk n).exchanges = (s.trk n).exchanges ++ [⟨y.hop, false⟩])))

/-- R148, R150, R159, R160, R255, R189: a budget that ends is a timeout; a packet with a bad CRC counts as one; either frees
the slot, is a bad exchange and costs its transaction an attempt, the fourth of which fails it with CRC_RETRY_EXHAUSTED; of
two bursts of one transfer each counts its own.  The characters of a packet sent make a packet without error when they are
received; a code violation, or any control character but EOP before the end, spoils one.
Completes (each answers a next state, by conditions on the state and the operands alone): `responseBudgetExpired`,
`retryExhausted`, `rxDataP`. -/
def Obligations.LineErrorsCostAttempts : Prop :=
  (∀ (n : Fin 8) (slot : Fin 32) (y : Txn) (c : Nat) (s : State), eventsDelivered s → (s.trk n).inSlotNo slot = some y →
      hasUp y.kind = true → y.purpose = .occurrence → s.occCtx n y = some c →
      ∃ t, exec (.responseBudgetExpired n slot) s = .next t
        ∧ (t.trk n).timeouts = satAdd 0xFFFF (s.trk n).timeouts 1 ∧ (t.trk n).crcErr = (s.trk n).crcErr
        ∧ (t.trk n).slots = (s.trk n).slots.filter (fun x => x.slot != y.slot)
        ∧ (s.isExchange y = true → (t.trk n).exchanges = (s.trk n).exchanges ++ [⟨y.hop, false⟩])
        ∧ (t.trk n).exhausted = (s.trk n).exhausted ++ (if 4 ≤ (s.ctx c).occ.attempts + 1 then [y] else [])
        ∧ t.ctx c = { s.ctx c with occ := { (s.ctx c).occ with
            attempts := (s.ctx c).occ.attempts + 1, waiting := decide ((s.ctx c).occ.attempts + 1 < 4) } }
        ∧ Only (fun q => q ∈ [.trk n, .ctx c]) s t)
  ∧ (∀ (n : Fin 8) (slot : Fin 32) (p : RxPkt) (y : Txn) (tg : Bool) (c : Nat) (s : State), eventsDelivered s →
      (s.trk n).inSlotNo slot = some y → y.kind = .tokenP tg → y.purpose = .occurrence → s.occCtx n y = some c →
      s.judge n y p = .bad .crc → ∃ t, exec (.rxDataP n slot p) s = .next t
        ∧ (t.trk n).crcErr = satAdd 0xFFFF (s.trk n).crcErr 1 ∧ (t.trk n).timeouts = (s.trk n).timeouts
        ∧ (t.ctx c).epm = (s.ctx c).epm ∧ (t.ctx c).e = (s.ctx c).e
        ∧ (t.ctx c).occ.attempts = (s.ctx c).occ.attempts + 1)
  ∧ (∀ (n : Fin 8) (slot : Fin 32) (y : Txn) (ps : List (Nat × Bool × List Byte)) (i k r m : Nat) (x : Xfer) (s : State),
      eventsDelivered s → (s.trk n).inSlotNo slot = some y → y.kind = .dataB ps → y.purpose = .transfer → y.xfer = some i →
      s.xfer i = some x → x.open = true → x.op = .bulkOut → x.origin = .ring k r m → x.stopping = none →
      ∃ t z, exec (.responseBudgetExpired n slot) s = .next t ∧ t.xfer i = some z
        ∧ (t.trk n).exhausted = (s.trk n).exhausted ++ (if 4 ≤ y.attempt then [y] else [])
        ∧ z.items.map (·.data) = x.items.map (·.data) ∧ z.bytes = x.bytes ∧ z.ended = false
        ∧ Only (fun q => q ∈ [.trk n, .xfers]) s t)
  ∧ (∀ (n : Fin 8) (y : Txn) (l : List Txn) (c : Nat) (s : State), eventsDelivered s → (s.trk n).exhausted = y :: l →
      y.xfer = none → s.occCtx n y = some c → (s.ctx c).kind = 1 →
      ∃ t, exec (.retryExhausted n) s = .next t ∧ (t.trk n).exhausted = l ∧ (t.ctx c).occ = {}
        ∧ ((s.ctx c).alm.present = true → (t.ctx c).alm.lastStatus = stCrcRetry)
        ∧ (Tab.get {} (t.crew (s.ctx c).owner).stat (s.ctx c).trunk).failed
            = satAdd 0xFFFF (Tab.get {} (s.crew (s.ctx c).owner).stat (s.ctx c).trunk).failed 1)
  ∧ (∀ (n : Fin 8) (s : State), eventsDelivered s → (s.trk n).exhausted = [] → exec (.retryExhausted n) s = .next s)
  ∧ (∀ (h : BitVec 32) (b : List Byte), hdrType h ≠ 0 → hdrType h ≠ 0xF → hdrPayload h = b.length →
      ∃ p, rxPacket ((pktLine (linePkt (hdrBytes h) b)).tail.map some) = p ∧ p.hdr = h ∧ p.payload = b ∧ pktError p = none)
  ∧ (∀ (pre : List Byte) (rest : List (Option LineChar)) (k : Ctrl), .ctrl k ≠ eop →
      pktError (rxPacket (pre.map (fun b => some (.data b)) ++ none :: rest)) = some .framing
      ∧ pktError (rxPacket (pre.map (fun b => some (.data b)) ++ some (.ctrl k) :: rest)) = some .framing)

/-- R507: each register that holds a class-F field has a shadow 0x8000 above it (Table 16.5); a read of the shadow
returns the values in force in the class-F fields and 0 in every other bit; a write to it is ignored.  Entry 0 of
CRW_SHARE shows the manager's values (R275). -/
def Obligations.ShadowsShowTheValuesInForce : Prop :=
  (∀ s : State,
    (s.responds .cal = true → ∀ k, k < 21 →
      wordRead 0 0 (0x38104 + 16 * k) s = if 10 ≤ k then BitVec.ofInt 32 (Tab.get 0 s.cal.userForce k) else 0)
    ∧ (s.responds .ros = true → wordRead 0 0 0x88000 s = BitVec.ofNat 32 (s.ros.evLog2.inForce % 4))
    ∧ (s.responds .cox = true → wordRead 0 0 0xC8000 s = BitVec.ofNat 32 (max 1 s.cox.mgrWeight.inForce % 256)
      ∧ ∀ n, n < 8 → wordRead 0 0 (0xC8100 + 0x20 * n) s
          = BitVec.ofNat 32 (max 1 (s.trk n).urgentHold.inForce % 16 * 0x100000))
    ∧ (s.responds .crw = true → ∀ k, 1 ≤ k → k < 64 → wordRead 0 0 (0x108200 + 8 * k) s
        = BitVec.ofNat 32 ((s.crew k).share.inForce.1 % 2048 + max 1 (s.crew k).share.inForce.2 % 256 * 0x10000))
    ∧ (s.responds .crw = true → ∀ im, s.img.applied = some im → wordRead 0 0 0x108200 s
        = BitVec.ofNat 32 ((1024 - im.sumSec (·.bulkMin)) % 2048 + max 1 s.cox.mgrWeight.inForce % 256 * 0x10000))
    ∧ (s.responds .epm = true → ∀ e, e = (s.ctx (s.crew 0).epmSel).epm → wordRead 0 0 0x1E8004 s
        = BitVec.ofNat 32 (bit e.withhold.inForce + bit e.stageWait.inForce * 2 + bit e.repeats.inForce * 4))
    ∧ (s.responds .epm = true → ∀ k e, 1 ≤ k → s.crewRuns k = true → (s.ctx (s.crew k).epmSel).used = true →
        (s.ctx (s.crew k).epmSel).owner = k → e = (s.ctx (s.crew k).epmSel).epm → wordRead k 0 0x8D04 s
          = BitVec.ofNat 32 (bit e.withhold.inForce + bit e.stageWait.inForce * 2 + bit e.repeats.inForce * 4)))
  ∧ (∀ (off : Nat) (v : Word) (s : State), eventsDelivered s →
      (off ∈ [0x88000, 0xC8000, 0x1E8004] ∨ (∃ k, k < 21 ∧ off = 0x38104 + 16 * k) ∨ (∃ n, n < 8 ∧ off = 0xC8100 + 0x20 * n)
        ∨ (∃ k, k < 64 ∧ off = 0x108200 + 8 * k)) →
      exec (.registerWrite 0 0 off [⟨v, 0xF#4, false⟩]) s = .next s)
  ∧ (∀ (k : Fin 64) (v : Word) (s : State), eventsDelivered s → k ≠ 0 →
      exec (.registerWrite k 0 0x8D04 [⟨v, 0xF#4, false⟩]) s = .next s)
end
end

