-- ==== Sys2Proof/Laws/Table.lean ====
section
/-! SUPPORT. Reading after writing in the sparse tables: each law holds for every list, canonical or not; and
every write keeps the canonical form. -/

namespace Sys2Proof

variable {α : Type}

@[simp] theorem Keyed.find_nil (k : Nat) : Keyed.find ([] : List (Nat × α)) k = none := rfl

@[simp] theorem Keyed.find_insert_same (k : Nat) (v : α) (t : List (Nat × α)) :
    Keyed.find (Keyed.insert k v t) k = some v := by
  induction t with
  | nil => simp [Keyed.insert, Keyed.find]
  | cons e t ih =>
    obtain ⟨j, w⟩ := e
    simp only [Keyed.insert]
    split
    · simp [Keyed.find]
    · split
      · simp [Keyed.find]
      · simp [Keyed.find, *]

theorem Keyed.find_insert_ne {j k : Nat} (h : k ≠ j) (v : α) (t : List (Nat × α)) :
    Keyed.find (Keyed.insert j v t) k = Keyed.find t k := by
  induction t with
  | nil => simp [Keyed.insert, Keyed.find, h]
  | cons e t ih =>
    obtain ⟨i, w⟩ := e
    simp only [Keyed.insert]
    split
    · simp [Keyed.find, h]
    · split
      · subst_vars; simp [Keyed.find, h]
      · simp [Keyed.find, ih]

theorem Keyed.find_insert (j k : Nat) (v : α) (t : List (Nat × α)) :
    Keyed.find (Keyed.insert j v t) k = if k = j then some v else Keyed.find t k := by
  split
  · subst_vars; simp
  · exact Keyed.find_insert_ne (by assumption) v t

@[simp] theorem Keyed.find_erase_same (k : Nat) (t : List (Nat × α)) : Keyed.find (Keyed.erase k t) k = none := by
  induction t with
  | nil => rfl
  | cons e t ih =>
    obtain ⟨j, w⟩ := e
    by_cases h : j = k
    · subst h; simpa [Keyed.erase] using ih
    · have : Keyed.erase k ((j, w) :: t) = (j, w) :: Keyed.erase k t := by simp [Keyed.erase, h]
      rw [this]; simp [Keyed.find, ih, Ne.symm h]

theorem Keyed.find_erase_ne {j k : Nat} (h : k ≠ j) (t : List (Nat × α)) :
    Keyed.find (Keyed.erase j t) k = Keyed.find t k := by
  induction t with
  | nil => rfl
  | cons e t ih =>
    obtain ⟨i, w⟩ := e
    by_cases hi : i = j
    · subst hi
      have : Keyed.erase i ((i, w) :: t) = Keyed.erase i t := by simp [Keyed.erase]
      rw [this, ih]; simp [Keyed.find, h]
    · have : Keyed.erase j ((i, w) :: t) = (i, w) :: Keyed.erase j t := by simp [Keyed.erase, hi]
      rw [this]; simp [Keyed.find, ih]

@[simp] theorem Tab.get_nil (d : α) (k : Nat) : Tab.get d [] k = d := rfl

@[simp] theorem Tab.get_put_same [DecidableEq α] (d : α) (k : Nat) (v : α) (t : Tab α) :
    Tab.get d (Tab.put d k v t) k = v := by
  by_cases h : v = d <;> simp [Tab.put, Tab.get, h]

theorem Tab.get_put_ne [DecidableEq α] {j k : Nat} (h : k ≠ j) (d v : α) (t : Tab α) :
    Tab.get d (Tab.put d j v t) k = Tab.get d t k := by
  by_cases hv : v = d <;> simp [Tab.put, Tab.get, hv, Keyed.find_erase_ne h, Keyed.find_insert_ne h]

theorem Tab.get_put [DecidableEq α] (j k : Nat) (d v : α) (t : Tab α) :
    Tab.get d (Tab.put d j v t) k = if k = j then v else Tab.get d t k := by
  split
  · subst_vars; simp
  · exact Tab.get_put_ne (by assumption) d v t

@[simp] theorem Tab.get_upd_same [DecidableEq α] (d : α) (k : Nat) (f : α → α) (t : Tab α) :
    Tab.get d (Tab.upd d k f t) k = f (Tab.get d t k) := by simp [Tab.upd]

theorem Tab.get_upd_ne [DecidableEq α] {j k : Nat} (h : k ≠ j) (d : α) (f : α → α) (t : Tab α) :
    Tab.get d (Tab.upd d j f t) k = Tab.get d t k := by simp [Tab.upd, Tab.get_put_ne h]

theorem Keyed.insert_all_lt {i k : Nat} {v : α} {t : List (Nat × α)} (h : t.all (fun e => decide (i < e.1)) = true)
    (hk : i < k) : (Keyed.insert k v t).all (fun e => decide (i < e.1)) = true := by
  induction t with
  | nil => simpa [Keyed.insert] using hk
  | cons e t ih =>
    obtain ⟨j, w⟩ := e
    simp only [List.all_cons, Bool.and_eq_true, decide_eq_true_eq] at h
    simp only [Keyed.insert]
    split
    · simp [hk, h.1, h.2]
    · split
      · simp [hk, h.2]
      · simp [h.1, ih h.2]

/-- A write keeps the canonical form. -/
theorem Tab.wf_put [DecidableEq α] (d : α) (k : Nat) (v : α) (t : Tab α) (h : Tab.wf d t = true) :
    Tab.wf d (Tab.put d k v t) = true := by
  unfold Tab.put
  split
  · induction t with
    | nil => rfl
    | cons e t ih =>
      obtain ⟨j, w⟩ := e
      simp only [Tab.wf, Bool.and_eq_true] at h
      by_cases hj : j = k
      · have : Keyed.erase k ((j, w) :: t) = Keyed.erase k t := by simp [Keyed.erase, hj]
        rw [this]; exact ih h.2
      · have : Keyed.erase k ((j, w) :: t) = (j, w) :: Keyed.erase k t := by simp [Keyed.erase, hj]
        rw [this]
        simp only [Tab.wf, Bool.and_eq_true]
        refine ⟨⟨h.1.1, ?_⟩, ih h.2⟩
        have h2 := h.1.2
        simp only [List.all_eq_true] at h2 ⊢
        intro x hx
        exact h2 x (List.mem_filter.mp hx).1
  · rename_i hv
    induction t with
    | nil => simp [Keyed.insert, Tab.wf, hv]
    | cons e t ih =>
      obtain ⟨j, w⟩ := e
      have h0 := h
      simp only [Tab.wf, Bool.and_eq_true] at h
      simp only [Keyed.insert]
      split
      · rename_i hlt
        simp only [Tab.wf, Bool.and_eq_true]
        refine ⟨⟨by simpa using hv, ?_⟩, h⟩
        have h2 := h.1.2
        simp only [List.all_eq_true, decide_eq_true_eq, List.mem_cons] at h2 ⊢
        rintro x (rfl | hx)
        · exact hlt
        · exact Nat.lt_trans hlt (h2 x hx)
      · split
        · subst_vars
          simp only [Tab.wf, Bool.and_eq_true]
          exact ⟨⟨by simpa using hv, h.1.2⟩, h.2⟩
        · rename_i h1 h2
          simp only [Tab.wf, Bool.and_eq_true]
          exact ⟨⟨h.1.1, Keyed.insert_all_lt h.1.2 (by omega)⟩, ih h.2⟩

end Sys2Proof
end

