-- ==== Sys2Proof/Laws/State.lean ====
section
/-! SUPPORT. What each update of the state leaves alone, and what reading gives after it: one lemma per field
per update. -/

namespace Sys2Proof.Machine

@[simp] theorem State.setTrk_pins (s : State) (n : Nat) (t : Trk) : (s.setTrk n t).pins = s.pins := rfl
@[simp] theorem State.setTrk_straps (s : State) (n : Nat) (t : Trk) : (s.setTrk n t).straps = s.straps := rfl
@[simp] theorem State.setTrk_fuse (s : State) (n : Nat) (t : Trk) : (s.setTrk n t).fuse = s.fuse := rfl
@[simp] theorem State.setTrk_shadow (s : State) (n : Nat) (t : Trk) : (s.setTrk n t).shadow = s.shadow := rfl
@[simp] theorem State.setTrk_pwr (s : State) (n : Nat) (t : Trk) : (s.setTrk n t).pwr = s.pwr := rfl
@[simp] theorem State.setTrk_cal (s : State) (n : Nat) (t : Trk) : (s.setTrk n t).cal = s.cal := rfl
@[simp] theorem State.setTrk_img (s : State) (n : Nat) (t : Trk) : (s.setTrk n t).img = s.img := rfl
@[simp] theorem State.setTrk_pci (s : State) (n : Nat) (t : Trk) : (s.setTrk n t).pci = s.pci := rfl
@[simp] theorem State.setTrk_tim (s : State) (n : Nat) (t : Trk) : (s.setTrk n t).tim = s.tim := rfl
@[simp] theorem State.setTrk_ros (s : State) (n : Nat) (t : Trk) : (s.setTrk n t).ros = s.ros := rfl
@[simp] theorem State.setTrk_ctxs (s : State) (n : Nat) (t : Trk) : (s.setTrk n t).ctxs = s.ctxs := rfl
@[simp] theorem State.setTrk_cox (s : State) (n : Nat) (t : Trk) : (s.setTrk n t).cox = s.cox := rfl
@[simp] theorem State.setTrk_crews (s : State) (n : Nat) (t : Trk) : (s.setTrk n t).crews = s.crews := rfl
@[simp] theorem State.setTrk_cmd (s : State) (n : Nat) (t : Trk) : (s.setTrk n t).cmd = s.cmd := rfl
@[simp] theorem State.setTrk_fetchPtr (s : State) (n : Nat) (t : Trk) : (s.setTrk n t).fetchPtr = s.fetchPtr := rfl
@[simp] theorem State.setTrk_xfers (s : State) (n : Nat) (t : Trk) : (s.setTrk n t).xfers = s.xfers := rfl
@[simp] theorem State.setTrk_seq (s : State) (n : Nat) (t : Trk) : (s.setTrk n t).seq = s.seq := rfl
@[simp] theorem State.setTrk_cells (s : State) (n : Nat) (t : Trk) : (s.setTrk n t).cells = s.cells := rfl
@[simp] theorem State.setTrk_chs (s : State) (n : Nat) (t : Trk) : (s.setTrk n t).chs = s.chs := rfl
@[simp] theorem State.setTrk_arbs (s : State) (n : Nat) (t : Trk) : (s.setTrk n t).arbs = s.arbs := rfl
@[simp] theorem State.setTrk_tdm (s : State) (n : Nat) (t : Trk) : (s.setTrk n t).tdm = s.tdm := rfl
@[simp] theorem State.setTrk_jtag (s : State) (n : Nat) (t : Trk) : (s.setTrk n t).jtag = s.jtag := rfl
@[simp] theorem State.setTrk_frame (s : State) (n : Nat) (t : Trk) : (s.setTrk n t).frame = s.frame := rfl
@[simp] theorem State.setTrk_stage (s : State) (n : Nat) (t : Trk) : (s.setTrk n t).stage = s.stage := rfl
@[simp] theorem State.setTrk_freeCtr (s : State) (n : Nat) (t : Trk) : (s.setTrk n t).freeCtr = s.freeCtr := rfl
@[simp] theorem State.setTrk_out (s : State) (n : Nat) (t : Trk) : (s.setTrk n t).out = s.out := rfl
@[simp] theorem State.setTrk_pending (s : State) (n : Nat) (t : Trk) : (s.setTrk n t).pending = s.pending := rfl

@[simp] theorem State.updTrk_pins (s : State) (n : Nat) (f : Trk → Trk) : (s.updTrk n f).pins = s.pins := rfl
@[simp] theorem State.updTrk_straps (s : State) (n : Nat) (f : Trk → Trk) : (s.updTrk n f).straps = s.straps := rfl
@[simp] theorem State.updTrk_fuse (s : State) (n : Nat) (f : Trk → Trk) : (s.updTrk n f).fuse = s.fuse := rfl
@[simp] theorem State.updTrk_shadow (s : State) (n : Nat) (f : Trk → Trk) : (s.updTrk n f).shadow = s.shadow := rfl
@[simp] theorem State.updTrk_pwr (s : State) (n : Nat) (f : Trk → Trk) : (s.updTrk n f).pwr = s.pwr := rfl
@[simp] theorem State.updTrk_cal (s : State) (n : Nat) (f : Trk → Trk) : (s.updTrk n f).cal = s.cal := rfl
@[simp] theorem State.updTrk_img (s : State) (n : Nat) (f : Trk → Trk) : (s.updTrk n f).img = s.img := rfl
@[simp] theorem State.updTrk_pci (s : State) (n : Nat) (f : Trk → Trk) : (s.updTrk n f).pci = s.pci := rfl
@[simp] theorem State.updTrk_tim (s : State) (n : Nat) (f : Trk → Trk) : (s.updTrk n f).tim = s.tim := rfl
@[simp] theorem State.updTrk_ros (s : State) (n : Nat) (f : Trk → Trk) : (s.updTrk n f).ros = s.ros := rfl
@[simp] theorem State.updTrk_ctxs (s : State) (n : Nat) (f : Trk → Trk) : (s.updTrk n f).ctxs = s.ctxs := rfl
@[simp] theorem State.updTrk_cox (s : State) (n : Nat) (f : Trk → Trk) : (s.updTrk n f).cox = s.cox := rfl
@[simp] theorem State.updTrk_crews (s : State) (n : Nat) (f : Trk → Trk) : (s.updTrk n f).crews = s.crews := rfl
@[simp] theorem State.updTrk_cmd (s : State) (n : Nat) (f : Trk → Trk) : (s.updTrk n f).cmd = s.cmd := rfl
@[simp] theorem State.updTrk_fetchPtr (s : State) (n : Nat) (f : Trk → Trk) : (s.updTrk n f).fetchPtr = s.fetchPtr := rfl
@[simp] theorem State.updTrk_xfers (s : State) (n : Nat) (f : Trk → Trk) : (s.updTrk n f).xfers = s.xfers := rfl
@[simp] theorem State.updTrk_seq (s : State) (n : Nat) (f : Trk → Trk) : (s.updTrk n f).seq = s.seq := rfl
@[simp] theorem State.updTrk_cells (s : State) (n : Nat) (f : Trk → Trk) : (s.updTrk n f).cells = s.cells := rfl
@[simp] theorem State.updTrk_chs (s : State) (n : Nat) (f : Trk → Trk) : (s.updTrk n f).chs = s.chs := rfl
@[simp] theorem State.updTrk_arbs (s : State) (n : Nat) (f : Trk → Trk) : (s.updTrk n f).arbs = s.arbs := rfl
@[simp] theorem State.updTrk_tdm (s : State) (n : Nat) (f : Trk → Trk) : (s.updTrk n f).tdm = s.tdm := rfl
@[simp] theorem State.updTrk_jtag (s : State) (n : Nat) (f : Trk → Trk) : (s.updTrk n f).jtag = s.jtag := rfl
@[simp] theorem State.updTrk_frame (s : State) (n : Nat) (f : Trk → Trk) : (s.updTrk n f).frame = s.frame := rfl
@[simp] theorem State.updTrk_stage (s : State) (n : Nat) (f : Trk → Trk) : (s.updTrk n f).stage = s.stage := rfl
@[simp] theorem State.updTrk_freeCtr (s : State) (n : Nat) (f : Trk → Trk) : (s.updTrk n f).freeCtr = s.freeCtr := rfl
@[simp] theorem State.updTrk_out (s : State) (n : Nat) (f : Trk → Trk) : (s.updTrk n f).out = s.out := rfl
@[simp] theorem State.updTrk_pending (s : State) (n : Nat) (f : Trk → Trk) : (s.updTrk n f).pending = s.pending := rfl

@[simp] theorem State.setCrew_pins (s : State) (k : Nat) (c : Crew) : (s.setCrew k c).pins = s.pins := rfl
@[simp] theorem State.setCrew_straps (s : State) (k : Nat) (c : Crew) : (s.setCrew k c).straps = s.straps := rfl
@[simp] theorem State.setCrew_fuse (s : State) (k : Nat) (c : Crew) : (s.setCrew k c).fuse = s.fuse := rfl
@[simp] theorem State.setCrew_shadow (s : State) (k : Nat) (c : Crew) : (s.setCrew k c).shadow = s.shadow := rfl
@[simp] theorem State.setCrew_pwr (s : State) (k : Nat) (c : Crew) : (s.setCrew k c).pwr = s.pwr := rfl
@[simp] theorem State.setCrew_cal (s : State) (k : Nat) (c : Crew) : (s.setCrew k c).cal = s.cal := rfl
@[simp] theorem State.setCrew_img (s : State) (k : Nat) (c : Crew) : (s.setCrew k c).img = s.img := rfl
@[simp] theorem State.setCrew_pci (s : State) (k : Nat) (c : Crew) : (s.setCrew k c).pci = s.pci := rfl
@[simp] theorem State.setCrew_tim (s : State) (k : Nat) (c : Crew) : (s.setCrew k c).tim = s.tim := rfl
@[simp] theorem State.setCrew_trks (s : State) (k : Nat) (c : Crew) : (s.setCrew k c).trks = s.trks := rfl
@[simp] theorem State.setCrew_ros (s : State) (k : Nat) (c : Crew) : (s.setCrew k c).ros = s.ros := rfl
@[simp] theorem State.setCrew_ctxs (s : State) (k : Nat) (c : Crew) : (s.setCrew k c).ctxs = s.ctxs := rfl
@[simp] theorem State.setCrew_cox (s : State) (k : Nat) (c : Crew) : (s.setCrew k c).cox = s.cox := rfl
@[simp] theorem State.setCrew_cmd (s : State) (k : Nat) (c : Crew) : (s.setCrew k c).cmd = s.cmd := rfl
@[simp] theorem State.setCrew_fetchPtr (s : State) (k : Nat) (c : Crew) : (s.setCrew k c).fetchPtr = s.fetchPtr := rfl
@[simp] theorem State.setCrew_xfers (s : State) (k : Nat) (c : Crew) : (s.setCrew k c).xfers = s.xfers := rfl
@[simp] theorem State.setCrew_seq (s : State) (k : Nat) (c : Crew) : (s.setCrew k c).seq = s.seq := rfl
@[simp] theorem State.setCrew_cells (s : State) (k : Nat) (c : Crew) : (s.setCrew k c).cells = s.cells := rfl
@[simp] theorem State.setCrew_chs (s : State) (k : Nat) (c : Crew) : (s.setCrew k c).chs = s.chs := rfl
@[simp] theorem State.setCrew_arbs (s : State) (k : Nat) (c : Crew) : (s.setCrew k c).arbs = s.arbs := rfl
@[simp] theorem State.setCrew_tdm (s : State) (k : Nat) (c : Crew) : (s.setCrew k c).tdm = s.tdm := rfl
@[simp] theorem State.setCrew_jtag (s : State) (k : Nat) (c : Crew) : (s.setCrew k c).jtag = s.jtag := rfl
@[simp] theorem State.setCrew_frame (s : State) (k : Nat) (c : Crew) : (s.setCrew k c).frame = s.frame := rfl
@[simp] theorem State.setCrew_stage (s : State) (k : Nat) (c : Crew) : (s.setCrew k c).stage = s.stage := rfl
@[simp] theorem State.setCrew_freeCtr (s : State) (k : Nat) (c : Crew) : (s.setCrew k c).freeCtr = s.freeCtr := rfl
@[simp] theorem State.setCrew_out (s : State) (k : Nat) (c : Crew) : (s.setCrew k c).out = s.out := rfl
@[simp] theorem State.setCrew_pending (s : State) (k : Nat) (c : Crew) : (s.setCrew k c).pending = s.pending := rfl

@[simp] theorem State.updCrew_pins (s : State) (k : Nat) (f : Crew → Crew) : (s.updCrew k f).pins = s.pins := rfl
@[simp] theorem State.updCrew_straps (s : State) (k : Nat) (f : Crew → Crew) : (s.updCrew k f).straps = s.straps := rfl
@[simp] theorem State.updCrew_fuse (s : State) (k : Nat) (f : Crew → Crew) : (s.updCrew k f).fuse = s.fuse := rfl
@[simp] theorem State.updCrew_shadow (s : State) (k : Nat) (f : Crew → Crew) : (s.updCrew k f).shadow = s.shadow := rfl
@[simp] theorem State.updCrew_pwr (s : State) (k : Nat) (f : Crew → Crew) : (s.updCrew k f).pwr = s.pwr := rfl
@[simp] theorem State.updCrew_cal (s : State) (k : Nat) (f : Crew → Crew) : (s.updCrew k f).cal = s.cal := rfl
@[simp] theorem State.updCrew_img (s : State) (k : Nat) (f : Crew → Crew) : (s.updCrew k f).img = s.img := rfl
@[simp] theorem State.updCrew_pci (s : State) (k : Nat) (f : Crew → Crew) : (s.updCrew k f).pci = s.pci := rfl
@[simp] theorem State.updCrew_tim (s : State) (k : Nat) (f : Crew → Crew) : (s.updCrew k f).tim = s.tim := rfl
@[simp] theorem State.updCrew_trks (s : State) (k : Nat) (f : Crew → Crew) : (s.updCrew k f).trks = s.trks := rfl
@[simp] theorem State.updCrew_ros (s : State) (k : Nat) (f : Crew → Crew) : (s.updCrew k f).ros = s.ros := rfl
@[simp] theorem State.updCrew_ctxs (s : State) (k : Nat) (f : Crew → Crew) : (s.updCrew k f).ctxs = s.ctxs := rfl
@[simp] theorem State.updCrew_cox (s : State) (k : Nat) (f : Crew → Crew) : (s.updCrew k f).cox = s.cox := rfl
@[simp] theorem State.updCrew_cmd (s : State) (k : Nat) (f : Crew → Crew) : (s.updCrew k f).cmd = s.cmd := rfl
@[simp] theorem State.updCrew_fetchPtr (s : State) (k : Nat) (f : Crew → Crew) : (s.updCrew k f).fetchPtr = s.fetchPtr := rfl
@[simp] theorem State.updCrew_xfers (s : State) (k : Nat) (f : Crew → Crew) : (s.updCrew k f).xfers = s.xfers := rfl
@[simp] theorem State.updCrew_seq (s : State) (k : Nat) (f : Crew → Crew) : (s.updCrew k f).seq = s.seq := rfl
@[simp] theorem State.updCrew_cells (s : State) (k : Nat) (f : Crew → Crew) : (s.updCrew k f).cells = s.cells := rfl
@[simp] theorem State.updCrew_chs (s : State) (k : Nat) (f : Crew → Crew) : (s.updCrew k f).chs = s.chs := rfl
@[simp] theorem State.updCrew_arbs (s : State) (k : Nat) (f : Crew → Crew) : (s.updCrew k f).arbs = s.arbs := rfl
@[simp] theorem State.updCrew_tdm (s : State) (k : Nat) (f : Crew → Crew) : (s.updCrew k f).tdm = s.tdm := rfl
@[simp] theorem State.updCrew_jtag (s : State) (k : Nat) (f : Crew → Crew) : (s.updCrew k f).jtag = s.jtag := rfl
@[simp] theorem State.updCrew_frame (s : State) (k : Nat) (f : Crew → Crew) : (s.updCrew k f).frame = s.frame := rfl
@[simp] theorem State.updCrew_stage (s : State) (k : Nat) (f : Crew → Crew) : (s.updCrew k f).stage = s.stage := rfl
@[simp] theorem State.updCrew_freeCtr (s : State) (k : Nat) (f : Crew → Crew) : (s.updCrew k f).freeCtr = s.freeCtr := rfl
@[simp] theorem State.updCrew_out (s : State) (k : Nat) (f : Crew → Crew) : (s.updCrew k f).out = s.out := rfl
@[simp] theorem State.updCrew_pending (s : State) (k : Nat) (f : Crew → Crew) : (s.updCrew k f).pending = s.pending := rfl

@[simp] theorem State.updRing_pins (s : State) (k r : Nat) (f : Ring → Ring) : (s.updRing k r f).pins = s.pins := rfl
@[simp] theorem State.updRing_straps (s : State) (k r : Nat) (f : Ring → Ring) : (s.updRing k r f).straps = s.straps := rfl
@[simp] theorem State.updRing_fuse (s : State) (k r : Nat) (f : Ring → Ring) : (s.updRing k r f).fuse = s.fuse := rfl
@[simp] theorem State.updRing_shadow (s : State) (k r : Nat) (f : Ring → Ring) : (s.updRing k r f).shadow = s.shadow := rfl
@[simp] theorem State.updRing_pwr (s : State) (k r : Nat) (f : Ring → Ring) : (s.updRing k r f).pwr = s.pwr := rfl
@[simp] theorem State.updRing_cal (s : State) (k r : Nat) (f : Ring → Ring) : (s.updRing k r f).cal = s.cal := rfl
@[simp] theorem State.updRing_img (s : State) (k r : Nat) (f : Ring → Ring) : (s.updRing k r f).img = s.img := rfl
@[simp] theorem State.updRing_pci (s : State) (k r : Nat) (f : Ring → Ring) : (s.updRing k r f).pci = s.pci := rfl
@[simp] theorem State.updRing_tim (s : State) (k r : Nat) (f : Ring → Ring) : (s.updRing k r f).tim = s.tim := rfl
@[simp] theorem State.updRing_trks (s : State) (k r : Nat) (f : Ring → Ring) : (s.updRing k r f).trks = s.trks := rfl
@[simp] theorem State.updRing_ros (s : State) (k r : Nat) (f : Ring → Ring) : (s.updRing k r f).ros = s.ros := rfl
@[simp] theorem State.updRing_ctxs (s : State) (k r : Nat) (f : Ring → Ring) : (s.updRing k r f).ctxs = s.ctxs := rfl
@[simp] theorem State.updRing_cox (s : State) (k r : Nat) (f : Ring → Ring) : (s.updRing k r f).cox = s.cox := rfl
@[simp] theorem State.updRing_cmd (s : State) (k r : Nat) (f : Ring → Ring) : (s.updRing k r f).cmd = s.cmd := rfl
@[simp] theorem State.updRing_fetchPtr (s : State) (k r : Nat) (f : Ring → Ring) : (s.updRing k r f).fetchPtr = s.fetchPtr := rfl
@[simp] theorem State.updRing_xfers (s : State) (k r : Nat) (f : Ring → Ring) : (s.updRing k r f).xfers = s.xfers := rfl
@[simp] theorem State.updRing_seq (s : State) (k r : Nat) (f : Ring → Ring) : (s.updRing k r f).seq = s.seq := rfl
@[simp] theorem State.updRing_cells (s : State) (k r : Nat) (f : Ring → Ring) : (s.updRing k r f).cells = s.cells := rfl
@[simp] theorem State.updRing_chs (s : State) (k r : Nat) (f : Ring → Ring) : (s.updRing k r f).chs = s.chs := rfl
@[simp] theorem State.updRing_arbs (s : State) (k r : Nat) (f : Ring → Ring) : (s.updRing k r f).arbs = s.arbs := rfl
@[simp] theorem State.updRing_tdm (s : State) (k r : Nat) (f : Ring → Ring) : (s.updRing k r f).tdm = s.tdm := rfl
@[simp] theorem State.updRing_jtag (s : State) (k r : Nat) (f : Ring → Ring) : (s.updRing k r f).jtag = s.jtag := rfl
@[simp] theorem State.updRing_frame (s : State) (k r : Nat) (f : Ring → Ring) : (s.updRing k r f).frame = s.frame := rfl
@[simp] theorem State.updRing_stage (s : State) (k r : Nat) (f : Ring → Ring) : (s.updRing k r f).stage = s.stage := rfl
@[simp] theorem State.updRing_freeCtr (s : State) (k r : Nat) (f : Ring → Ring) : (s.updRing k r f).freeCtr = s.freeCtr := rfl
@[simp] theorem State.updRing_out (s : State) (k r : Nat) (f : Ring → Ring) : (s.updRing k r f).out = s.out := rfl
@[simp] theorem State.updRing_pending (s : State) (k r : Nat) (f : Ring → Ring) : (s.updRing k r f).pending = s.pending := rfl

@[simp] theorem State.updCq_pins (s : State) (k q : Nat) (f : Cq → Cq) : (s.updCq k q f).pins = s.pins := rfl
@[simp] theorem State.updCq_straps (s : State) (k q : Nat) (f : Cq → Cq) : (s.updCq k q f).straps = s.straps := rfl
@[simp] theorem State.updCq_fuse (s : State) (k q : Nat) (f : Cq → Cq) : (s.updCq k q f).fuse = s.fuse := rfl
@[simp] theorem State.updCq_shadow (s : State) (k q : Nat) (f : Cq → Cq) : (s.updCq k q f).shadow = s.shadow := rfl
@[simp] theorem State.updCq_pwr (s : State) (k q : Nat) (f : Cq → Cq) : (s.updCq k q f).pwr = s.pwr := rfl
@[simp] theorem State.updCq_cal (s : State) (k q : Nat) (f : Cq → Cq) : (s.updCq k q f).cal = s.cal := rfl
@[simp] theorem State.updCq_img (s : State) (k q : Nat) (f : Cq → Cq) : (s.updCq k q f).img = s.img := rfl
@[simp] theorem State.updCq_pci (s : State) (k q : Nat) (f : Cq → Cq) : (s.updCq k q f).pci = s.pci := rfl
@[simp] theorem State.updCq_tim (s : State) (k q : Nat) (f : Cq → Cq) : (s.updCq k q f).tim = s.tim := rfl
@[simp] theorem State.updCq_trks (s : State) (k q : Nat) (f : Cq → Cq) : (s.updCq k q f).trks = s.trks := rfl
@[simp] theorem State.updCq_ros (s : State) (k q : Nat) (f : Cq → Cq) : (s.updCq k q f).ros = s.ros := rfl
@[simp] theorem State.updCq_ctxs (s : State) (k q : Nat) (f : Cq → Cq) : (s.updCq k q f).ctxs = s.ctxs := rfl
@[simp] theorem State.updCq_cox (s : State) (k q : Nat) (f : Cq → Cq) : (s.updCq k q f).cox = s.cox := rfl
@[simp] theorem State.updCq_cmd (s : State) (k q : Nat) (f : Cq → Cq) : (s.updCq k q f).cmd = s.cmd := rfl
@[simp] theorem State.updCq_fetchPtr (s : State) (k q : Nat) (f : Cq → Cq) : (s.updCq k q f).fetchPtr = s.fetchPtr := rfl
@[simp] theorem State.updCq_xfers (s : State) (k q : Nat) (f : Cq → Cq) : (s.updCq k q f).xfers = s.xfers := rfl
@[simp] theorem State.updCq_seq (s : State) (k q : Nat) (f : Cq → Cq) : (s.updCq k q f).seq = s.seq := rfl
@[simp] theorem State.updCq_cells (s : State) (k q : Nat) (f : Cq → Cq) : (s.updCq k q f).cells = s.cells := rfl
@[simp] theorem State.updCq_chs (s : State) (k q : Nat) (f : Cq → Cq) : (s.updCq k q f).chs = s.chs := rfl
@[simp] theorem State.updCq_arbs (s : State) (k q : Nat) (f : Cq → Cq) : (s.updCq k q f).arbs = s.arbs := rfl
@[simp] theorem State.updCq_tdm (s : State) (k q : Nat) (f : Cq → Cq) : (s.updCq k q f).tdm = s.tdm := rfl
@[simp] theorem State.updCq_jtag (s : State) (k q : Nat) (f : Cq → Cq) : (s.updCq k q f).jtag = s.jtag := rfl
@[simp] theorem State.updCq_frame (s : State) (k q : Nat) (f : Cq → Cq) : (s.updCq k q f).frame = s.frame := rfl
@[simp] theorem State.updCq_stage (s : State) (k q : Nat) (f : Cq → Cq) : (s.updCq k q f).stage = s.stage := rfl
@[simp] theorem State.updCq_freeCtr (s : State) (k q : Nat) (f : Cq → Cq) : (s.updCq k q f).freeCtr = s.freeCtr := rfl
@[simp] theorem State.updCq_out (s : State) (k q : Nat) (f : Cq → Cq) : (s.updCq k q f).out = s.out := rfl
@[simp] theorem State.updCq_pending (s : State) (k q : Nat) (f : Cq → Cq) : (s.updCq k q f).pending = s.pending := rfl

@[simp] theorem State.updRxp_pins (s : State) (k p : Nat) (f : Rxp → Rxp) : (s.updRxp k p f).pins = s.pins := rfl
@[simp] theorem State.updRxp_straps (s : State) (k p : Nat) (f : Rxp → Rxp) : (s.updRxp k p f).straps = s.straps := rfl
@[simp] theorem State.updRxp_fuse (s : State) (k p : Nat) (f : Rxp → Rxp) : (s.updRxp k p f).fuse = s.fuse := rfl
@[simp] theorem State.updRxp_shadow (s : State) (k p : Nat) (f : Rxp → Rxp) : (s.updRxp k p f).shadow = s.shadow := rfl
@[simp] theorem State.updRxp_pwr (s : State) (k p : Nat) (f : Rxp → Rxp) : (s.updRxp k p f).pwr = s.pwr := rfl
@[simp] theorem State.updRxp_cal (s : State) (k p : Nat) (f : Rxp → Rxp) : (s.updRxp k p f).cal = s.cal := rfl
@[simp] theorem State.updRxp_img (s : State) (k p : Nat) (f : Rxp → Rxp) : (s.updRxp k p f).img = s.img := rfl
@[simp] theorem State.updRxp_pci (s : State) (k p : Nat) (f : Rxp → Rxp) : (s.updRxp k p f).pci = s.pci := rfl
@[simp] theorem State.updRxp_tim (s : State) (k p : Nat) (f : Rxp → Rxp) : (s.updRxp k p f).tim = s.tim := rfl
@[simp] theorem State.updRxp_trks (s : State) (k p : Nat) (f : Rxp → Rxp) : (s.updRxp k p f).trks = s.trks := rfl
@[simp] theorem State.updRxp_ros (s : State) (k p : Nat) (f : Rxp → Rxp) : (s.updRxp k p f).ros = s.ros := rfl
@[simp] theorem State.updRxp_ctxs (s : State) (k p : Nat) (f : Rxp → Rxp) : (s.updRxp k p f).ctxs = s.ctxs := rfl
@[simp] theorem State.updRxp_cox (s : State) (k p : Nat) (f : Rxp → Rxp) : (s.updRxp k p f).cox = s.cox := rfl
@[simp] theorem State.updRxp_cmd (s : State) (k p : Nat) (f : Rxp → Rxp) : (s.updRxp k p f).cmd = s.cmd := rfl
@[simp] theorem State.updRxp_fetchPtr (s : State) (k p : Nat) (f : Rxp → Rxp) : (s.updRxp k p f).fetchPtr = s.fetchPtr := rfl
@[simp] theorem State.updRxp_xfers (s : State) (k p : Nat) (f : Rxp → Rxp) : (s.updRxp k p f).xfers = s.xfers := rfl
@[simp] theorem State.updRxp_seq (s : State) (k p : Nat) (f : Rxp → Rxp) : (s.updRxp k p f).seq = s.seq := rfl
@[simp] theorem State.updRxp_cells (s : State) (k p : Nat) (f : Rxp → Rxp) : (s.updRxp k p f).cells = s.cells := rfl
@[simp] theorem State.updRxp_chs (s : State) (k p : Nat) (f : Rxp → Rxp) : (s.updRxp k p f).chs = s.chs := rfl
@[simp] theorem State.updRxp_arbs (s : State) (k p : Nat) (f : Rxp → Rxp) : (s.updRxp k p f).arbs = s.arbs := rfl
@[simp] theorem State.updRxp_tdm (s : State) (k p : Nat) (f : Rxp → Rxp) : (s.updRxp k p f).tdm = s.tdm := rfl
@[simp] theorem State.updRxp_jtag (s : State) (k p : Nat) (f : Rxp → Rxp) : (s.updRxp k p f).jtag = s.jtag := rfl
@[simp] theorem State.updRxp_frame (s : State) (k p : Nat) (f : Rxp → Rxp) : (s.updRxp k p f).frame = s.frame := rfl
@[simp] theorem State.updRxp_stage (s : State) (k p : Nat) (f : Rxp → Rxp) : (s.updRxp k p f).stage = s.stage := rfl
@[simp] theorem State.updRxp_freeCtr (s : State) (k p : Nat) (f : Rxp → Rxp) : (s.updRxp k p f).freeCtr = s.freeCtr := rfl
@[simp] theorem State.updRxp_out (s : State) (k p : Nat) (f : Rxp → Rxp) : (s.updRxp k p f).out = s.out := rfl
@[simp] theorem State.updRxp_pending (s : State) (k p : Nat) (f : Rxp → Rxp) : (s.updRxp k p f).pending = s.pending := rfl

@[simp] theorem State.setCtx_pins (s : State) (c : Nat) (x : Ctx) : (s.setCtx c x).pins = s.pins := rfl
@[simp] theorem State.setCtx_straps (s : State) (c : Nat) (x : Ctx) : (s.setCtx c x).straps = s.straps := rfl
@[simp] theorem State.setCtx_fuse (s : State) (c : Nat) (x : Ctx) : (s.setCtx c x).fuse = s.fuse := rfl
@[simp] theorem State.setCtx_shadow (s : State) (c : Nat) (x : Ctx) : (s.setCtx c x).shadow = s.shadow := rfl
@[simp] theorem State.setCtx_pwr (s : State) (c : Nat) (x : Ctx) : (s.setCtx c x).pwr = s.pwr := rfl
@[simp] theorem State.setCtx_cal (s : State) (c : Nat) (x : Ctx) : (s.setCtx c x).cal = s.cal := rfl
@[simp] theorem State.setCtx_img (s : State) (c : Nat) (x : Ctx) : (s.setCtx c x).img = s.img := rfl
@[simp] theorem State.setCtx_pci (s : State) (c : Nat) (x : Ctx) : (s.setCtx c x).pci = s.pci := rfl
@[simp] theorem State.setCtx_tim (s : State) (c : Nat) (x : Ctx) : (s.setCtx c x).tim = s.tim := rfl
@[simp] theorem State.setCtx_trks (s : State) (c : Nat) (x : Ctx) : (s.setCtx c x).trks = s.trks := rfl
@[simp] theorem State.setCtx_ros (s : State) (c : Nat) (x : Ctx) : (s.setCtx c x).ros = s.ros := rfl
@[simp] theorem State.setCtx_cox (s : State) (c : Nat) (x : Ctx) : (s.setCtx c x).cox = s.cox := rfl
@[simp] theorem State.setCtx_crews (s : State) (c : Nat) (x : Ctx) : (s.setCtx c x).crews = s.crews := rfl
@[simp] theorem State.setCtx_cmd (s : State) (c : Nat) (x : Ctx) : (s.setCtx c x).cmd = s.cmd := rfl
@[simp] theorem State.setCtx_fetchPtr (s : State) (c : Nat) (x : Ctx) : (s.setCtx c x).fetchPtr = s.fetchPtr := rfl
@[simp] theorem State.setCtx_xfers (s : State) (c : Nat) (x : Ctx) : (s.setCtx c x).xfers = s.xfers := rfl
@[simp] theorem State.setCtx_seq (s : State) (c : Nat) (x : Ctx) : (s.setCtx c x).seq = s.seq := rfl
@[simp] theorem State.setCtx_cells (s : State) (c : Nat) (x : Ctx) : (s.setCtx c x).cells = s.cells := rfl
@[simp] theorem State.setCtx_chs (s : State) (c : Nat) (x : Ctx) : (s.setCtx c x).chs = s.chs := rfl
@[simp] theorem State.setCtx_arbs (s : State) (c : Nat) (x : Ctx) : (s.setCtx c x).arbs = s.arbs := rfl
@[simp] theorem State.setCtx_tdm (s : State) (c : Nat) (x : Ctx) : (s.setCtx c x).tdm = s.tdm := rfl
@[simp] theorem State.setCtx_jtag (s : State) (c : Nat) (x : Ctx) : (s.setCtx c x).jtag = s.jtag := rfl
@[simp] theorem State.setCtx_frame (s : State) (c : Nat) (x : Ctx) : (s.setCtx c x).frame = s.frame := rfl
@[simp] theorem State.setCtx_stage (s : State) (c : Nat) (x : Ctx) : (s.setCtx c x).stage = s.stage := rfl
@[simp] theorem State.setCtx_freeCtr (s : State) (c : Nat) (x : Ctx) : (s.setCtx c x).freeCtr = s.freeCtr := rfl
@[simp] theorem State.setCtx_out (s : State) (c : Nat) (x : Ctx) : (s.setCtx c x).out = s.out := rfl
@[simp] theorem State.setCtx_pending (s : State) (c : Nat) (x : Ctx) : (s.setCtx c x).pending = s.pending := rfl

@[simp] theorem State.updCtx_pins (s : State) (c : Nat) (f : Ctx → Ctx) : (s.updCtx c f).pins = s.pins := rfl
@[simp] theorem State.updCtx_straps (s : State) (c : Nat) (f : Ctx → Ctx) : (s.updCtx c f).straps = s.straps := rfl
@[simp] theorem State.updCtx_fuse (s : State) (c : Nat) (f : Ctx → Ctx) : (s.updCtx c f).fuse = s.fuse := rfl
@[simp] theorem State.updCtx_shadow (s : State) (c : Nat) (f : Ctx → Ctx) : (s.updCtx c f).shadow = s.shadow := rfl
@[simp] theorem State.updCtx_pwr (s : State) (c : Nat) (f : Ctx → Ctx) : (s.updCtx c f).pwr = s.pwr := rfl
@[simp] theorem State.updCtx_cal (s : State) (c : Nat) (f : Ctx → Ctx) : (s.updCtx c f).cal = s.cal := rfl
@[simp] theorem State.updCtx_img (s : State) (c : Nat) (f : Ctx → Ctx) : (s.updCtx c f).img = s.img := rfl
@[simp] theorem State.updCtx_pci (s : State) (c : Nat) (f : Ctx → Ctx) : (s.updCtx c f).pci = s.pci := rfl
@[simp] theorem State.updCtx_tim (s : State) (c : Nat) (f : Ctx → Ctx) : (s.updCtx c f).tim = s.tim := rfl
@[simp] theorem State.updCtx_trks (s : State) (c : Nat) (f : Ctx → Ctx) : (s.updCtx c f).trks = s.trks := rfl
@[simp] theorem State.updCtx_ros (s : State) (c : Nat) (f : Ctx → Ctx) : (s.updCtx c f).ros = s.ros := rfl
@[simp] theorem State.updCtx_cox (s : State) (c : Nat) (f : Ctx → Ctx) : (s.updCtx c f).cox = s.cox := rfl
@[simp] theorem State.updCtx_crews (s : State) (c : Nat) (f : Ctx → Ctx) : (s.updCtx c f).crews = s.crews := rfl
@[simp] theorem State.updCtx_cmd (s : State) (c : Nat) (f : Ctx → Ctx) : (s.updCtx c f).cmd = s.cmd := rfl
@[simp] theorem State.updCtx_fetchPtr (s : State) (c : Nat) (f : Ctx → Ctx) : (s.updCtx c f).fetchPtr = s.fetchPtr := rfl
@[simp] theorem State.updCtx_xfers (s : State) (c : Nat) (f : Ctx → Ctx) : (s.updCtx c f).xfers = s.xfers := rfl
@[simp] theorem State.updCtx_seq (s : State) (c : Nat) (f : Ctx → Ctx) : (s.updCtx c f).seq = s.seq := rfl
@[simp] theorem State.updCtx_cells (s : State) (c : Nat) (f : Ctx → Ctx) : (s.updCtx c f).cells = s.cells := rfl
@[simp] theorem State.updCtx_chs (s : State) (c : Nat) (f : Ctx → Ctx) : (s.updCtx c f).chs = s.chs := rfl
@[simp] theorem State.updCtx_arbs (s : State) (c : Nat) (f : Ctx → Ctx) : (s.updCtx c f).arbs = s.arbs := rfl
@[simp] theorem State.updCtx_tdm (s : State) (c : Nat) (f : Ctx → Ctx) : (s.updCtx c f).tdm = s.tdm := rfl
@[simp] theorem State.updCtx_jtag (s : State) (c : Nat) (f : Ctx → Ctx) : (s.updCtx c f).jtag = s.jtag := rfl
@[simp] theorem State.updCtx_frame (s : State) (c : Nat) (f : Ctx → Ctx) : (s.updCtx c f).frame = s.frame := rfl
@[simp] theorem State.updCtx_stage (s : State) (c : Nat) (f : Ctx → Ctx) : (s.updCtx c f).stage = s.stage := rfl
@[simp] theorem State.updCtx_freeCtr (s : State) (c : Nat) (f : Ctx → Ctx) : (s.updCtx c f).freeCtr = s.freeCtr := rfl
@[simp] theorem State.updCtx_out (s : State) (c : Nat) (f : Ctx → Ctx) : (s.updCtx c f).out = s.out := rfl
@[simp] theorem State.updCtx_pending (s : State) (c : Nat) (f : Ctx → Ctx) : (s.updCtx c f).pending = s.pending := rfl

@[simp] theorem State.setCh_pins (s : State) (c : Nat) (x : Ch) : (s.setCh c x).pins = s.pins := rfl
@[simp] theorem State.setCh_straps (s : State) (c : Nat) (x : Ch) : (s.setCh c x).straps = s.straps := rfl
@[simp] theorem State.setCh_fuse (s : State) (c : Nat) (x : Ch) : (s.setCh c x).fuse = s.fuse := rfl
@[simp] theorem State.setCh_shadow (s : State) (c : Nat) (x : Ch) : (s.setCh c x).shadow = s.shadow := rfl
@[simp] theorem State.setCh_pwr (s : State) (c : Nat) (x : Ch) : (s.setCh c x).pwr = s.pwr := rfl
@[simp] theorem State.setCh_cal (s : State) (c : Nat) (x : Ch) : (s.setCh c x).cal = s.cal := rfl
@[simp] theorem State.setCh_img (s : State) (c : Nat) (x : Ch) : (s.setCh c x).img = s.img := rfl
@[simp] theorem State.setCh_pci (s : State) (c : Nat) (x : Ch) : (s.setCh c x).pci = s.pci := rfl
@[simp] theorem State.setCh_tim (s : State) (c : Nat) (x : Ch) : (s.setCh c x).tim = s.tim := rfl
@[simp] theorem State.setCh_trks (s : State) (c : Nat) (x : Ch) : (s.setCh c x).trks = s.trks := rfl
@[simp] theorem State.setCh_ros (s : State) (c : Nat) (x : Ch) : (s.setCh c x).ros = s.ros := rfl
@[simp] theorem State.setCh_ctxs (s : State) (c : Nat) (x : Ch) : (s.setCh c x).ctxs = s.ctxs := rfl
@[simp] theorem State.setCh_cox (s : State) (c : Nat) (x : Ch) : (s.setCh c x).cox = s.cox := rfl
@[simp] theorem State.setCh_crews (s : State) (c : Nat) (x : Ch) : (s.setCh c x).crews = s.crews := rfl
@[simp] theorem State.setCh_cmd (s : State) (c : Nat) (x : Ch) : (s.setCh c x).cmd = s.cmd := rfl
@[simp] theorem State.setCh_fetchPtr (s : State) (c : Nat) (x : Ch) : (s.setCh c x).fetchPtr = s.fetchPtr := rfl
@[simp] theorem State.setCh_xfers (s : State) (c : Nat) (x : Ch) : (s.setCh c x).xfers = s.xfers := rfl
@[simp] theorem State.setCh_seq (s : State) (c : Nat) (x : Ch) : (s.setCh c x).seq = s.seq := rfl
@[simp] theorem State.setCh_cells (s : State) (c : Nat) (x : Ch) : (s.setCh c x).cells = s.cells := rfl
@[simp] theorem State.setCh_arbs (s : State) (c : Nat) (x : Ch) : (s.setCh c x).arbs = s.arbs := rfl
@[simp] theorem State.setCh_tdm (s : State) (c : Nat) (x : Ch) : (s.setCh c x).tdm = s.tdm := rfl
@[simp] theorem State.setCh_jtag (s : State) (c : Nat) (x : Ch) : (s.setCh c x).jtag = s.jtag := rfl
@[simp] theorem State.setCh_frame (s : State) (c : Nat) (x : Ch) : (s.setCh c x).frame = s.frame := rfl
@[simp] theorem State.setCh_stage (s : State) (c : Nat) (x : Ch) : (s.setCh c x).stage = s.stage := rfl
@[simp] theorem State.setCh_freeCtr (s : State) (c : Nat) (x : Ch) : (s.setCh c x).freeCtr = s.freeCtr := rfl
@[simp] theorem State.setCh_out (s : State) (c : Nat) (x : Ch) : (s.setCh c x).out = s.out := rfl
@[simp] theorem State.setCh_pending (s : State) (c : Nat) (x : Ch) : (s.setCh c x).pending = s.pending := rfl

@[simp] theorem State.updCh_pins (s : State) (c : Nat) (f : Ch → Ch) : (s.updCh c f).pins = s.pins := rfl
@[simp] theorem State.updCh_straps (s : State) (c : Nat) (f : Ch → Ch) : (s.updCh c f).straps = s.straps := rfl
@[simp] theorem State.updCh_fuse (s : State) (c : Nat) (f : Ch → Ch) : (s.updCh c f).fuse = s.fuse := rfl
@[simp] theorem State.updCh_shadow (s : State) (c : Nat) (f : Ch → Ch) : (s.updCh c f).shadow = s.shadow := rfl
@[simp] theorem State.updCh_pwr (s : State) (c : Nat) (f : Ch → Ch) : (s.updCh c f).pwr = s.pwr := rfl
@[simp] theorem State.updCh_cal (s : State) (c : Nat) (f : Ch → Ch) : (s.updCh c f).cal = s.cal := rfl
@[simp] theorem State.updCh_img (s : State) (c : Nat) (f : Ch → Ch) : (s.updCh c f).img = s.img := rfl
@[simp] theorem State.updCh_pci (s : State) (c : Nat) (f : Ch → Ch) : (s.updCh c f).pci = s.pci := rfl
@[simp] theorem State.updCh_tim (s : State) (c : Nat) (f : Ch → Ch) : (s.updCh c f).tim = s.tim := rfl
@[simp] theorem State.updCh_trks (s : State) (c : Nat) (f : Ch → Ch) : (s.updCh c f).trks = s.trks := rfl
@[simp] theorem State.updCh_ros (s : State) (c : Nat) (f : Ch → Ch) : (s.updCh c f).ros = s.ros := rfl
@[simp] theorem State.updCh_ctxs (s : State) (c : Nat) (f : Ch → Ch) : (s.updCh c f).ctxs = s.ctxs := rfl
@[simp] theorem State.updCh_cox (s : State) (c : Nat) (f : Ch → Ch) : (s.updCh c f).cox = s.cox := rfl
@[simp] theorem State.updCh_crews (s : State) (c : Nat) (f : Ch → Ch) : (s.updCh c f).crews = s.crews := rfl
@[simp] theorem State.updCh_cmd (s : State) (c : Nat) (f : Ch → Ch) : (s.updCh c f).cmd = s.cmd := rfl
@[simp] theorem State.updCh_fetchPtr (s : State) (c : Nat) (f : Ch → Ch) : (s.updCh c f).fetchPtr = s.fetchPtr := rfl
@[simp] theorem State.updCh_xfers (s : State) (c : Nat) (f : Ch → Ch) : (s.updCh c f).xfers = s.xfers := rfl
@[simp] theorem State.updCh_seq (s : State) (c : Nat) (f : Ch → Ch) : (s.updCh c f).seq = s.seq := rfl
@[simp] theorem State.updCh_cells (s : State) (c : Nat) (f : Ch → Ch) : (s.updCh c f).cells = s.cells := rfl
@[simp] theorem State.updCh_arbs (s : State) (c : Nat) (f : Ch → Ch) : (s.updCh c f).arbs = s.arbs := rfl
@[simp] theorem State.updCh_tdm (s : State) (c : Nat) (f : Ch → Ch) : (s.updCh c f).tdm = s.tdm := rfl
@[simp] theorem State.updCh_jtag (s : State) (c : Nat) (f : Ch → Ch) : (s.updCh c f).jtag = s.jtag := rfl
@[simp] theorem State.updCh_frame (s : State) (c : Nat) (f : Ch → Ch) : (s.updCh c f).frame = s.frame := rfl
@[simp] theorem State.updCh_stage (s : State) (c : Nat) (f : Ch → Ch) : (s.updCh c f).stage = s.stage := rfl
@[simp] theorem State.updCh_freeCtr (s : State) (c : Nat) (f : Ch → Ch) : (s.updCh c f).freeCtr = s.freeCtr := rfl
@[simp] theorem State.updCh_out (s : State) (c : Nat) (f : Ch → Ch) : (s.updCh c f).out = s.out := rfl
@[simp] theorem State.updCh_pending (s : State) (c : Nat) (f : Ch → Ch) : (s.updCh c f).pending = s.pending := rfl

@[simp] theorem State.updArb_pins (s : State) (a : Nat) (f : Arb → Arb) : (s.updArb a f).pins = s.pins := rfl
@[simp] theorem State.updArb_straps (s : State) (a : Nat) (f : Arb → Arb) : (s.updArb a f).straps = s.straps := rfl
@[simp] theorem State.updArb_fuse (s : State) (a : Nat) (f : Arb → Arb) : (s.updArb a f).fuse = s.fuse := rfl
@[simp] theorem State.updArb_shadow (s : State) (a : Nat) (f : Arb → Arb) : (s.updArb a f).shadow = s.shadow := rfl
@[simp] theorem State.updArb_pwr (s : State) (a : Nat) (f : Arb → Arb) : (s.updArb a f).pwr = s.pwr := rfl
@[simp] theorem State.updArb_cal (s : State) (a : Nat) (f : Arb → Arb) : (s.updArb a f).cal = s.cal := rfl
@[simp] theorem State.updArb_img (s : State) (a : Nat) (f : Arb → Arb) : (s.updArb a f).img = s.img := rfl
@[simp] theorem State.updArb_pci (s : State) (a : Nat) (f : Arb → Arb) : (s.updArb a f).pci = s.pci := rfl
@[simp] theorem State.updArb_tim (s : State) (a : Nat) (f : Arb → Arb) : (s.updArb a f).tim = s.tim := rfl
@[simp] theorem State.updArb_trks (s : State) (a : Nat) (f : Arb → Arb) : (s.updArb a f).trks = s.trks := rfl
@[simp] theorem State.updArb_ros (s : State) (a : Nat) (f : Arb → Arb) : (s.updArb a f).ros = s.ros := rfl
@[simp] theorem State.updArb_ctxs (s : State) (a : Nat) (f : Arb → Arb) : (s.updArb a f).ctxs = s.ctxs := rfl
@[simp] theorem State.updArb_cox (s : State) (a : Nat) (f : Arb → Arb) : (s.updArb a f).cox = s.cox := rfl
@[simp] theorem State.updArb_crews (s : State) (a : Nat) (f : Arb → Arb) : (s.updArb a f).crews = s.crews := rfl
@[simp] theorem State.updArb_cmd (s : State) (a : Nat) (f : Arb → Arb) : (s.updArb a f).cmd = s.cmd := rfl
@[simp] theorem State.updArb_fetchPtr (s : State) (a : Nat) (f : Arb → Arb) : (s.updArb a f).fetchPtr = s.fetchPtr := rfl
@[simp] theorem State.updArb_xfers (s : State) (a : Nat) (f : Arb → Arb) : (s.updArb a f).xfers = s.xfers := rfl
@[simp] theorem State.updArb_seq (s : State) (a : Nat) (f : Arb → Arb) : (s.updArb a f).seq = s.seq := rfl
@[simp] theorem State.updArb_cells (s : State) (a : Nat) (f : Arb → Arb) : (s.updArb a f).cells = s.cells := rfl
@[simp] theorem State.updArb_chs (s : State) (a : Nat) (f : Arb → Arb) : (s.updArb a f).chs = s.chs := rfl
@[simp] theorem State.updArb_tdm (s : State) (a : Nat) (f : Arb → Arb) : (s.updArb a f).tdm = s.tdm := rfl
@[simp] theorem State.updArb_jtag (s : State) (a : Nat) (f : Arb → Arb) : (s.updArb a f).jtag = s.jtag := rfl
@[simp] theorem State.updArb_frame (s : State) (a : Nat) (f : Arb → Arb) : (s.updArb a f).frame = s.frame := rfl
@[simp] theorem State.updArb_stage (s : State) (a : Nat) (f : Arb → Arb) : (s.updArb a f).stage = s.stage := rfl
@[simp] theorem State.updArb_freeCtr (s : State) (a : Nat) (f : Arb → Arb) : (s.updArb a f).freeCtr = s.freeCtr := rfl
@[simp] theorem State.updArb_out (s : State) (a : Nat) (f : Arb → Arb) : (s.updArb a f).out = s.out := rfl
@[simp] theorem State.updArb_pending (s : State) (a : Nat) (f : Arb → Arb) : (s.updArb a f).pending = s.pending := rfl

@[simp] theorem State.setXfer_pins (s : State) (i : Nat) (x : Xfer) : (s.setXfer i x).pins = s.pins := rfl
@[simp] theorem State.setXfer_straps (s : State) (i : Nat) (x : Xfer) : (s.setXfer i x).straps = s.straps := rfl
@[simp] theorem State.setXfer_fuse (s : State) (i : Nat) (x : Xfer) : (s.setXfer i x).fuse = s.fuse := rfl
@[simp] theorem State.setXfer_shadow (s : State) (i : Nat) (x : Xfer) : (s.setXfer i x).shadow = s.shadow := rfl
@[simp] theorem State.setXfer_pwr (s : State) (i : Nat) (x : Xfer) : (s.setXfer i x).pwr = s.pwr := rfl
@[simp] theorem State.setXfer_cal (s : State) (i : Nat) (x : Xfer) : (s.setXfer i x).cal = s.cal := rfl
@[simp] theorem State.setXfer_img (s : State) (i : Nat) (x : Xfer) : (s.setXfer i x).img = s.img := rfl
@[simp] theorem State.setXfer_pci (s : State) (i : Nat) (x : Xfer) : (s.setXfer i x).pci = s.pci := rfl
@[simp] theorem State.setXfer_tim (s : State) (i : Nat) (x : Xfer) : (s.setXfer i x).tim = s.tim := rfl
@[simp] theorem State.setXfer_trks (s : State) (i : Nat) (x : Xfer) : (s.setXfer i x).trks = s.trks := rfl
@[simp] theorem State.setXfer_ros (s : State) (i : Nat) (x : Xfer) : (s.setXfer i x).ros = s.ros := rfl
@[simp] theorem State.setXfer_ctxs (s : State) (i : Nat) (x : Xfer) : (s.setXfer i x).ctxs = s.ctxs := rfl
@[simp] theorem State.setXfer_cox (s : State) (i : Nat) (x : Xfer) : (s.setXfer i x).cox = s.cox := rfl
@[simp] theorem State.setXfer_crews (s : State) (i : Nat) (x : Xfer) : (s.setXfer i x).crews = s.crews := rfl
@[simp] theorem State.setXfer_cmd (s : State) (i : Nat) (x : Xfer) : (s.setXfer i x).cmd = s.cmd := rfl
@[simp] theorem State.setXfer_fetchPtr (s : State) (i : Nat) (x : Xfer) : (s.setXfer i x).fetchPtr = s.fetchPtr := rfl
@[simp] theorem State.setXfer_seq (s : State) (i : Nat) (x : Xfer) : (s.setXfer i x).seq = s.seq := rfl
@[simp] theorem State.setXfer_cells (s : State) (i : Nat) (x : Xfer) : (s.setXfer i x).cells = s.cells := rfl
@[simp] theorem State.setXfer_chs (s : State) (i : Nat) (x : Xfer) : (s.setXfer i x).chs = s.chs := rfl
@[simp] theorem State.setXfer_arbs (s : State) (i : Nat) (x : Xfer) : (s.setXfer i x).arbs = s.arbs := rfl
@[simp] theorem State.setXfer_tdm (s : State) (i : Nat) (x : Xfer) : (s.setXfer i x).tdm = s.tdm := rfl
@[simp] theorem State.setXfer_jtag (s : State) (i : Nat) (x : Xfer) : (s.setXfer i x).jtag = s.jtag := rfl
@[simp] theorem State.setXfer_frame (s : State) (i : Nat) (x : Xfer) : (s.setXfer i x).frame = s.frame := rfl
@[simp] theorem State.setXfer_stage (s : State) (i : Nat) (x : Xfer) : (s.setXfer i x).stage = s.stage := rfl
@[simp] theorem State.setXfer_freeCtr (s : State) (i : Nat) (x : Xfer) : (s.setXfer i x).freeCtr = s.freeCtr := rfl
@[simp] theorem State.setXfer_out (s : State) (i : Nat) (x : Xfer) : (s.setXfer i x).out = s.out := rfl
@[simp] theorem State.setXfer_pending (s : State) (i : Nat) (x : Xfer) : (s.setXfer i x).pending = s.pending := rfl

@[simp] theorem State.setEntry_pins (s : State) (i : Nat) (e : Entry) : (s.setEntry i e).pins = s.pins := rfl
@[simp] theorem State.setEntry_straps (s : State) (i : Nat) (e : Entry) : (s.setEntry i e).straps = s.straps := rfl
@[simp] theorem State.setEntry_fuse (s : State) (i : Nat) (e : Entry) : (s.setEntry i e).fuse = s.fuse := rfl
@[simp] theorem State.setEntry_shadow (s : State) (i : Nat) (e : Entry) : (s.setEntry i e).shadow = s.shadow := rfl
@[simp] theorem State.setEntry_pwr (s : State) (i : Nat) (e : Entry) : (s.setEntry i e).pwr = s.pwr := rfl
@[simp] theorem State.setEntry_cal (s : State) (i : Nat) (e : Entry) : (s.setEntry i e).cal = s.cal := rfl
@[simp] theorem State.setEntry_img (s : State) (i : Nat) (e : Entry) : (s.setEntry i e).img = s.img := rfl
@[simp] theorem State.setEntry_pci (s : State) (i : Nat) (e : Entry) : (s.setEntry i e).pci = s.pci := rfl
@[simp] theorem State.setEntry_tim (s : State) (i : Nat) (e : Entry) : (s.setEntry i e).tim = s.tim := rfl
@[simp] theorem State.setEntry_trks (s : State) (i : Nat) (e : Entry) : (s.setEntry i e).trks = s.trks := rfl
@[simp] theorem State.setEntry_ctxs (s : State) (i : Nat) (e : Entry) : (s.setEntry i e).ctxs = s.ctxs := rfl
@[simp] theorem State.setEntry_cox (s : State) (i : Nat) (e : Entry) : (s.setEntry i e).cox = s.cox := rfl
@[simp] theorem State.setEntry_crews (s : State) (i : Nat) (e : Entry) : (s.setEntry i e).crews = s.crews := rfl
@[simp] theorem State.setEntry_cmd (s : State) (i : Nat) (e : Entry) : (s.setEntry i e).cmd = s.cmd := rfl
@[simp] theorem State.setEntry_fetchPtr (s : State) (i : Nat) (e : Entry) : (s.setEntry i e).fetchPtr = s.fetchPtr := rfl
@[simp] theorem State.setEntry_xfers (s : State) (i : Nat) (e : Entry) : (s.setEntry i e).xfers = s.xfers := rfl
@[simp] theorem State.setEntry_seq (s : State) (i : Nat) (e : Entry) : (s.setEntry i e).seq = s.seq := rfl
@[simp] theorem State.setEntry_cells (s : State) (i : Nat) (e : Entry) : (s.setEntry i e).cells = s.cells := rfl
@[simp] theorem State.setEntry_chs (s : State) (i : Nat) (e : Entry) : (s.setEntry i e).chs = s.chs := rfl
@[simp] theorem State.setEntry_arbs (s : State) (i : Nat) (e : Entry) : (s.setEntry i e).arbs = s.arbs := rfl
@[simp] theorem State.setEntry_tdm (s : State) (i : Nat) (e : Entry) : (s.setEntry i e).tdm = s.tdm := rfl
@[simp] theorem State.setEntry_jtag (s : State) (i : Nat) (e : Entry) : (s.setEntry i e).jtag = s.jtag := rfl
@[simp] theorem State.setEntry_frame (s : State) (i : Nat) (e : Entry) : (s.setEntry i e).frame = s.frame := rfl
@[simp] theorem State.setEntry_stage (s : State) (i : Nat) (e : Entry) : (s.setEntry i e).stage = s.stage := rfl
@[simp] theorem State.setEntry_freeCtr (s : State) (i : Nat) (e : Entry) : (s.setEntry i e).freeCtr = s.freeCtr := rfl
@[simp] theorem State.setEntry_out (s : State) (i : Nat) (e : Entry) : (s.setEntry i e).out = s.out := rfl
@[simp] theorem State.setEntry_pending (s : State) (i : Nat) (e : Entry) : (s.setEntry i e).pending = s.pending := rfl

@[simp] theorem raise_pins (s : State) (fn : Nat) (e : EventName) (n d : Nat) : (raise fn e n d s).pins = s.pins := rfl
@[simp] theorem raise_straps (s : State) (fn : Nat) (e : EventName) (n d : Nat) : (raise fn e n d s).straps = s.straps := rfl
@[simp] theorem raise_fuse (s : State) (fn : Nat) (e : EventName) (n d : Nat) : (raise fn e n d s).fuse = s.fuse := rfl
@[simp] theorem raise_shadow (s : State) (fn : Nat) (e : EventName) (n d : Nat) : (raise fn e n d s).shadow = s.shadow := rfl
@[simp] theorem raise_pwr (s : State) (fn : Nat) (e : EventName) (n d : Nat) : (raise fn e n d s).pwr = s.pwr := rfl
@[simp] theorem raise_cal (s : State) (fn : Nat) (e : EventName) (n d : Nat) : (raise fn e n d s).cal = s.cal := rfl
@[simp] theorem raise_img (s : State) (fn : Nat) (e : EventName) (n d : Nat) : (raise fn e n d s).img = s.img := rfl
@[simp] theorem raise_pci (s : State) (fn : Nat) (e : EventName) (n d : Nat) : (raise fn e n d s).pci = s.pci := rfl
@[simp] theorem raise_tim (s : State) (fn : Nat) (e : EventName) (n d : Nat) : (raise fn e n d s).tim = s.tim := rfl
@[simp] theorem raise_trks (s : State) (fn : Nat) (e : EventName) (n d : Nat) : (raise fn e n d s).trks = s.trks := rfl
@[simp] theorem raise_ros (s : State) (fn : Nat) (e : EventName) (n d : Nat) : (raise fn e n d s).ros = s.ros := rfl
@[simp] theorem raise_ctxs (s : State) (fn : Nat) (e : EventName) (n d : Nat) : (raise fn e n d s).ctxs = s.ctxs := rfl
@[simp] theorem raise_cox (s : State) (fn : Nat) (e : EventName) (n d : Nat) : (raise fn e n d s).cox = s.cox := rfl
@[simp] theorem raise_crews (s : State) (fn : Nat) (e : EventName) (n d : Nat) : (raise fn e n d s).crews = s.crews := rfl
@[simp] theorem raise_cmd (s : State) (fn : Nat) (e : EventName) (n d : Nat) : (raise fn e n d s).cmd = s.cmd := rfl
@[simp] theorem raise_fetchPtr (s : State) (fn : Nat) (e : EventName) (n d : Nat) : (raise fn e n d s).fetchPtr = s.fetchPtr := rfl
@[simp] theorem raise_xfers (s : State) (fn : Nat) (e : EventName) (n d : Nat) : (raise fn e n d s).xfers = s.xfers := rfl
@[simp] theorem raise_seq (s : State) (fn : Nat) (e : EventName) (n d : Nat) : (raise fn e n d s).seq = s.seq := rfl
@[simp] theorem raise_cells (s : State) (fn : Nat) (e : EventName) (n d : Nat) : (raise fn e n d s).cells = s.cells := rfl
@[simp] theorem raise_chs (s : State) (fn : Nat) (e : EventName) (n d : Nat) : (raise fn e n d s).chs = s.chs := rfl
@[simp] theorem raise_arbs (s : State) (fn : Nat) (e : EventName) (n d : Nat) : (raise fn e n d s).arbs = s.arbs := rfl
@[simp] theorem raise_tdm (s : State) (fn : Nat) (e : EventName) (n d : Nat) : (raise fn e n d s).tdm = s.tdm := rfl
@[simp] theorem raise_jtag (s : State) (fn : Nat) (e : EventName) (n d : Nat) : (raise fn e n d s).jtag = s.jtag := rfl
@[simp] theorem raise_frame (s : State) (fn : Nat) (e : EventName) (n d : Nat) : (raise fn e n d s).frame = s.frame := rfl
@[simp] theorem raise_freeCtr (s : State) (fn : Nat) (e : EventName) (n d : Nat) : (raise fn e n d s).freeCtr = s.freeCtr := rfl
@[simp] theorem raise_out (s : State) (fn : Nat) (e : EventName) (n d : Nat) : (raise fn e n d s).out = s.out := rfl
@[simp] theorem raise_pending (s : State) (fn : Nat) (e : EventName) (n d : Nat) : (raise fn e n d s).pending = s.pending := rfl

@[simp] theorem raiseM_pins (s : State) (e : EventName) (d : Nat) : (raiseM e d s).pins = s.pins := rfl
@[simp] theorem raiseM_straps (s : State) (e : EventName) (d : Nat) : (raiseM e d s).straps = s.straps := rfl
@[simp] theorem raiseM_fuse (s : State) (e : EventName) (d : Nat) : (raiseM e d s).fuse = s.fuse := rfl
@[simp] theorem raiseM_shadow (s : State) (e : EventName) (d : Nat) : (raiseM e d s).shadow = s.shadow := rfl
@[simp] theorem raiseM_pwr (s : State) (e : EventName) (d : Nat) : (raiseM e d s).pwr = s.pwr := rfl
@[simp] theorem raiseM_cal (s : State) (e : EventName) (d : Nat) : (raiseM e d s).cal = s.cal := rfl
@[simp] theorem raiseM_img (s : State) (e : EventName) (d : Nat) : (raiseM e d s).img = s.img := rfl
@[simp] theorem raiseM_pci (s : State) (e : EventName) (d : Nat) : (raiseM e d s).pci = s.pci := rfl
@[simp] theorem raiseM_tim (s : State) (e : EventName) (d : Nat) : (raiseM e d s).tim = s.tim := rfl
@[simp] theorem raiseM_trks (s : State) (e : EventName) (d : Nat) : (raiseM e d s).trks = s.trks := rfl
@[simp] theorem raiseM_ros (s : State) (e : EventName) (d : Nat) : (raiseM e d s).ros = s.ros := rfl
@[simp] theorem raiseM_ctxs (s : State) (e : EventName) (d : Nat) : (raiseM e d s).ctxs = s.ctxs := rfl
@[simp] theorem raiseM_cox (s : State) (e : EventName) (d : Nat) : (raiseM e d s).cox = s.cox := rfl
@[simp] theorem raiseM_crews (s : State) (e : EventName) (d : Nat) : (raiseM e d s).crews = s.crews := rfl
@[simp] theorem raiseM_cmd (s : State) (e : EventName) (d : Nat) : (raiseM e d s).cmd = s.cmd := rfl
@[simp] theorem raiseM_fetchPtr (s : State) (e : EventName) (d : Nat) : (raiseM e d s).fetchPtr = s.fetchPtr := rfl
@[simp] theorem raiseM_xfers (s : State) (e : EventName) (d : Nat) : (raiseM e d s).xfers = s.xfers := rfl
@[simp] theorem raiseM_seq (s : State) (e : EventName) (d : Nat) : (raiseM e d s).seq = s.seq := rfl
@[simp] theorem raiseM_cells (s : State) (e : EventName) (d : Nat) : (raiseM e d s).cells = s.cells := rfl
@[simp] theorem raiseM_chs (s : State) (e : EventName) (d : Nat) : (raiseM e d s).chs = s.chs := rfl
@[simp] theorem raiseM_arbs (s : State) (e : EventName) (d : Nat) : (raiseM e d s).arbs = s.arbs := rfl
@[simp] theorem raiseM_tdm (s : State) (e : EventName) (d : Nat) : (raiseM e d s).tdm = s.tdm := rfl
@[simp] theorem raiseM_jtag (s : State) (e : EventName) (d : Nat) : (raiseM e d s).jtag = s.jtag := rfl
@[simp] theorem raiseM_frame (s : State) (e : EventName) (d : Nat) : (raiseM e d s).frame = s.frame := rfl
@[simp] theorem raiseM_freeCtr (s : State) (e : EventName) (d : Nat) : (raiseM e d s).freeCtr = s.freeCtr := rfl
@[simp] theorem raiseM_out (s : State) (e : EventName) (d : Nat) : (raiseM e d s).out = s.out := rfl
@[simp] theorem raiseM_pending (s : State) (e : EventName) (d : Nat) : (raiseM e d s).pending = s.pending := rfl

@[simp] theorem cfgReject_pins (s : State) (fn off : Nat) : (cfgReject fn off s).pins = s.pins := rfl
@[simp] theorem cfgReject_straps (s : State) (fn off : Nat) : (cfgReject fn off s).straps = s.straps := rfl
@[simp] theorem cfgReject_fuse (s : State) (fn off : Nat) : (cfgReject fn off s).fuse = s.fuse := rfl
@[simp] theorem cfgReject_shadow (s : State) (fn off : Nat) : (cfgReject fn off s).shadow = s.shadow := rfl
@[simp] theorem cfgReject_pwr (s : State) (fn off : Nat) : (cfgReject fn off s).pwr = s.pwr := rfl
@[simp] theorem cfgReject_cal (s : State) (fn off : Nat) : (cfgReject fn off s).cal = s.cal := rfl
@[simp] theorem cfgReject_img (s : State) (fn off : Nat) : (cfgReject fn off s).img = s.img := rfl
@[simp] theorem cfgReject_pci (s : State) (fn off : Nat) : (cfgReject fn off s).pci = s.pci := rfl
@[simp] theorem cfgReject_tim (s : State) (fn off : Nat) : (cfgReject fn off s).tim = s.tim := rfl
@[simp] theorem cfgReject_trks (s : State) (fn off : Nat) : (cfgReject fn off s).trks = s.trks := rfl
@[simp] theorem cfgReject_ros (s : State) (fn off : Nat) : (cfgReject fn off s).ros = s.ros := rfl
@[simp] theorem cfgReject_ctxs (s : State) (fn off : Nat) : (cfgReject fn off s).ctxs = s.ctxs := rfl
@[simp] theorem cfgReject_cox (s : State) (fn off : Nat) : (cfgReject fn off s).cox = s.cox := rfl
@[simp] theorem cfgReject_crews (s : State) (fn off : Nat) : (cfgReject fn off s).crews = s.crews := rfl
@[simp] theorem cfgReject_cmd (s : State) (fn off : Nat) : (cfgReject fn off s).cmd = s.cmd := rfl
@[simp] theorem cfgReject_fetchPtr (s : State) (fn off : Nat) : (cfgReject fn off s).fetchPtr = s.fetchPtr := rfl
@[simp] theorem cfgReject_xfers (s : State) (fn off : Nat) : (cfgReject fn off s).xfers = s.xfers := rfl
@[simp] theorem cfgReject_seq (s : State) (fn off : Nat) : (cfgReject fn off s).seq = s.seq := rfl
@[simp] theorem cfgReject_cells (s : State) (fn off : Nat) : (cfgReject fn off s).cells = s.cells := rfl
@[simp] theorem cfgReject_chs (s : State) (fn off : Nat) : (cfgReject fn off s).chs = s.chs := rfl
@[simp] theorem cfgReject_arbs (s : State) (fn off : Nat) : (cfgReject fn off s).arbs = s.arbs := rfl
@[simp] theorem cfgReject_tdm (s : State) (fn off : Nat) : (cfgReject fn off s).tdm = s.tdm := rfl
@[simp] theorem cfgReject_jtag (s : State) (fn off : Nat) : (cfgReject fn off s).jtag = s.jtag := rfl
@[simp] theorem cfgReject_frame (s : State) (fn off : Nat) : (cfgReject fn off s).frame = s.frame := rfl
@[simp] theorem cfgReject_freeCtr (s : State) (fn off : Nat) : (cfgReject fn off s).freeCtr = s.freeCtr := rfl
@[simp] theorem cfgReject_out (s : State) (fn off : Nat) : (cfgReject fn off s).out = s.out := rfl
@[simp] theorem cfgReject_pending (s : State) (fn off : Nat) : (cfgReject fn off s).pending = s.pending := rfl

@[simp] theorem emit_pins (s : State) (o : Output) : (emit o s).pins = s.pins := rfl
@[simp] theorem emit_straps (s : State) (o : Output) : (emit o s).straps = s.straps := rfl
@[simp] theorem emit_fuse (s : State) (o : Output) : (emit o s).fuse = s.fuse := rfl
@[simp] theorem emit_shadow (s : State) (o : Output) : (emit o s).shadow = s.shadow := rfl
@[simp] theorem emit_pwr (s : State) (o : Output) : (emit o s).pwr = s.pwr := rfl
@[simp] theorem emit_cal (s : State) (o : Output) : (emit o s).cal = s.cal := rfl
@[simp] theorem emit_img (s : State) (o : Output) : (emit o s).img = s.img := rfl
@[simp] theorem emit_pci (s : State) (o : Output) : (emit o s).pci = s.pci := rfl
@[simp] theorem emit_tim (s : State) (o : Output) : (emit o s).tim = s.tim := rfl
@[simp] theorem emit_trks (s : State) (o : Output) : (emit o s).trks = s.trks := rfl
@[simp] theorem emit_ros (s : State) (o : Output) : (emit o s).ros = s.ros := rfl
@[simp] theorem emit_ctxs (s : State) (o : Output) : (emit o s).ctxs = s.ctxs := rfl
@[simp] theorem emit_cox (s : State) (o : Output) : (emit o s).cox = s.cox := rfl
@[simp] theorem emit_crews (s : State) (o : Output) : (emit o s).crews = s.crews := rfl
@[simp] theorem emit_cmd (s : State) (o : Output) : (emit o s).cmd = s.cmd := rfl
@[simp] theorem emit_fetchPtr (s : State) (o : Output) : (emit o s).fetchPtr = s.fetchPtr := rfl
@[simp] theorem emit_xfers (s : State) (o : Output) : (emit o s).xfers = s.xfers := rfl
@[simp] theorem emit_seq (s : State) (o : Output) : (emit o s).seq = s.seq := rfl
@[simp] theorem emit_cells (s : State) (o : Output) : (emit o s).cells = s.cells := rfl
@[simp] theorem emit_chs (s : State) (o : Output) : (emit o s).chs = s.chs := rfl
@[simp] theorem emit_arbs (s : State) (o : Output) : (emit o s).arbs = s.arbs := rfl
@[simp] theorem emit_tdm (s : State) (o : Output) : (emit o s).tdm = s.tdm := rfl
@[simp] theorem emit_jtag (s : State) (o : Output) : (emit o s).jtag = s.jtag := rfl
@[simp] theorem emit_frame (s : State) (o : Output) : (emit o s).frame = s.frame := rfl
@[simp] theorem emit_stage (s : State) (o : Output) : (emit o s).stage = s.stage := rfl
@[simp] theorem emit_freeCtr (s : State) (o : Output) : (emit o s).freeCtr = s.freeCtr := rfl
@[simp] theorem emit_pending (s : State) (o : Output) : (emit o s).pending = s.pending := rfl

@[simp] theorem freeValue_pins (s : State)  : ((freeValue s).2).pins = s.pins := rfl
@[simp] theorem freeValue_straps (s : State)  : ((freeValue s).2).straps = s.straps := rfl
@[simp] theorem freeValue_fuse (s : State)  : ((freeValue s).2).fuse = s.fuse := rfl
@[simp] theorem freeValue_shadow (s : State)  : ((freeValue s).2).shadow = s.shadow := rfl
@[simp] theorem freeValue_pwr (s : State)  : ((freeValue s).2).pwr = s.pwr := rfl
@[simp] theorem freeValue_cal (s : State)  : ((freeValue s).2).cal = s.cal := rfl
@[simp] theorem freeValue_img (s : State)  : ((freeValue s).2).img = s.img := rfl
@[simp] theorem freeValue_pci (s : State)  : ((freeValue s).2).pci = s.pci := rfl
@[simp] theorem freeValue_tim (s : State)  : ((freeValue s).2).tim = s.tim := rfl
@[simp] theorem freeValue_trks (s : State)  : ((freeValue s).2).trks = s.trks := rfl
@[simp] theorem freeValue_ros (s : State)  : ((freeValue s).2).ros = s.ros := rfl
@[simp] theorem freeValue_ctxs (s : State)  : ((freeValue s).2).ctxs = s.ctxs := rfl
@[simp] theorem freeValue_cox (s : State)  : ((freeValue s).2).cox = s.cox := rfl
@[simp] theorem freeValue_crews (s : State)  : ((freeValue s).2).crews = s.crews := rfl
@[simp] theorem freeValue_cmd (s : State)  : ((freeValue s).2).cmd = s.cmd := rfl
@[simp] theorem freeValue_fetchPtr (s : State)  : ((freeValue s).2).fetchPtr = s.fetchPtr := rfl
@[simp] theorem freeValue_xfers (s : State)  : ((freeValue s).2).xfers = s.xfers := rfl
@[simp] theorem freeValue_seq (s : State)  : ((freeValue s).2).seq = s.seq := rfl
@[simp] theorem freeValue_cells (s : State)  : ((freeValue s).2).cells = s.cells := rfl
@[simp] theorem freeValue_chs (s : State)  : ((freeValue s).2).chs = s.chs := rfl
@[simp] theorem freeValue_arbs (s : State)  : ((freeValue s).2).arbs = s.arbs := rfl
@[simp] theorem freeValue_tdm (s : State)  : ((freeValue s).2).tdm = s.tdm := rfl
@[simp] theorem freeValue_jtag (s : State)  : ((freeValue s).2).jtag = s.jtag := rfl
@[simp] theorem freeValue_frame (s : State)  : ((freeValue s).2).frame = s.frame := rfl
@[simp] theorem freeValue_stage (s : State)  : ((freeValue s).2).stage = s.stage := rfl
@[simp] theorem freeValue_out (s : State)  : ((freeValue s).2).out = s.out := rfl
@[simp] theorem freeValue_pending (s : State)  : ((freeValue s).2).pending = s.pending := rfl

/-! Reading after writing. -/

@[simp] theorem State.setTrk_trk (s : State) (n : Nat) (t : Trk) : (s.setTrk n t).trk n = t := by
  simp [State.setTrk, State.trk]
@[simp] theorem State.updTrk_trk (s : State) (n : Nat) (f : Trk → Trk) : (s.updTrk n f).trk n = f (s.trk n) := by
  simp [State.updTrk]
theorem State.updTrk_trk_ne (s : State) {m n : Nat} (h : m ≠ n) (f : Trk → Trk) : (s.updTrk n f).trk m = s.trk m := by
  simp [State.updTrk, State.setTrk, State.trk, Tab.get_put_ne h]
theorem State.updTrk_trk_ite (s : State) (m n : Nat) (f : Trk → Trk) :
    (s.updTrk n f).trk m = if m = n then f (s.trk m) else s.trk m := by
  split
  · subst_vars; simp
  · exact s.updTrk_trk_ne (by assumption) f
@[simp] theorem State.setCrew_crew (s : State) (k : Nat) (c : Crew) : (s.setCrew k c).crew k = c := by
  simp [State.setCrew, State.crew]
@[simp] theorem State.updCrew_crew (s : State) (k : Nat) (f : Crew → Crew) : (s.updCrew k f).crew k = f (s.crew k) := by
  simp [State.updCrew]
theorem State.updCrew_crew_ne (s : State) {j k : Nat} (h : j ≠ k) (f : Crew → Crew) :
    (s.updCrew k f).crew j = s.crew j := by
  simp [State.updCrew, State.setCrew, State.crew, Tab.get_put_ne h]
theorem State.updCrew_crew_ite (s : State) (j k : Nat) (f : Crew → Crew) :
    (s.updCrew k f).crew j = if j = k then f (s.crew j) else s.crew j := by
  split
  · subst_vars; simp
  · exact s.updCrew_crew_ne (by assumption) f
@[simp] theorem State.setCtx_ctx (s : State) (c : Nat) (x : Ctx) : (s.setCtx c x).ctx c = x := by
  simp [State.setCtx, State.ctx]
@[simp] theorem State.updCtx_ctx (s : State) (c : Nat) (f : Ctx → Ctx) : (s.updCtx c f).ctx c = f (s.ctx c) := by
  simp [State.updCtx]
theorem State.updCtx_ctx_ne (s : State) {b c : Nat} (h : b ≠ c) (f : Ctx → Ctx) : (s.updCtx c f).ctx b = s.ctx b := by
  simp [State.updCtx, State.setCtx, State.ctx, Tab.get_put_ne h]
@[simp] theorem State.setCh_ch (s : State) (c : Nat) (x : Ch) : (s.setCh c x).ch c = x := by
  simp [State.setCh, State.ch]
@[simp] theorem State.updCh_ch (s : State) (c : Nat) (f : Ch → Ch) : (s.updCh c f).ch c = f (s.ch c) := by
  simp [State.updCh]
theorem State.updCh_ch_ne (s : State) {b c : Nat} (h : b ≠ c) (f : Ch → Ch) : (s.updCh c f).ch b = s.ch b := by
  simp [State.updCh, State.setCh, State.ch, Tab.get_put_ne h]
@[simp] theorem State.updArb_arb (s : State) (a : Nat) (f : Arb → Arb) : (s.updArb a f).arb a = f (s.arb a) := by
  simp [State.updArb, State.arb]
theorem State.updArb_arb_ne (s : State) {a b : Nat} (h : b ≠ a) (f : Arb → Arb) : (s.updArb a f).arb b = s.arb b := by
  simp [State.updArb, State.arb, Tab.get_put_ne h]
@[simp] theorem State.setXfer_xfer (s : State) (i : Nat) (x : Xfer) : (s.setXfer i x).xfer i = some x := by
  simp [State.setXfer, State.xfer]
theorem State.setXfer_xfer_ne (s : State) {i j : Nat} (h : j ≠ i) (x : Xfer) : (s.setXfer i x).xfer j = s.xfer j := by
  simp [State.setXfer, State.xfer, Keyed.find_insert_ne h]
@[simp] theorem State.setEntry_entry (s : State) (i : Nat) (e : Entry) : (s.setEntry i e).entry i = some e := by
  simp [State.setEntry, State.entry]
@[simp] theorem Crew.updRing_ring (c : Crew) (r : Nat) (f : Ring → Ring) : (c.updRing r f).ring r = f (c.ring r) := by
  simp [Crew.updRing, Crew.ring]
theorem Crew.updRing_ring_ne (c : Crew) {q r : Nat} (h : q ≠ r) (f : Ring → Ring) : (c.updRing r f).ring q = c.ring q := by
  simp [Crew.updRing, Crew.ring, Tab.get_upd_ne h]
@[simp] theorem Crew.updCq_cq (c : Crew) (q : Nat) (f : Cq → Cq) : (c.updCq q f).cq q = f (c.cq q) := by
  simp [Crew.updCq, Crew.cq]
theorem Crew.updCq_cq_ne (c : Crew) {p q : Nat} (h : p ≠ q) (f : Cq → Cq) : (c.updCq q f).cq p = c.cq p := by
  simp [Crew.updCq, Crew.cq, Tab.get_upd_ne h]
@[simp] theorem Crew.updVec_vec (c : Crew) (v : Nat) (f : Vec → Vec) : (c.updVec v f).vec v = f (c.vec v) := by
  simp [Crew.updVec, Crew.vec]
theorem Crew.updVec_vec_ne (c : Crew) {u v : Nat} (h : u ≠ v) (f : Vec → Vec) : (c.updVec v f).vec u = c.vec u := by
  simp [Crew.updVec, Crew.vec, Tab.get_upd_ne h]
@[simp] theorem Crew.updRxp_rxp (c : Crew) (p : Nat) (f : Rxp → Rxp) : (c.updRxp p f).rxp p = f (c.rxp p) := by
  simp [Crew.updRxp, Crew.rxp]
theorem Crew.updRxp_rxp_ne (c : Crew) {q p : Nat} (h : q ≠ p) (f : Rxp → Rxp) : (c.updRxp p f).rxp q = c.rxp q := by
  simp [Crew.updRxp, Crew.rxp, Tab.get_upd_ne h]
@[simp] theorem State.updRing_ring (s : State) (k r : Nat) (f : Ring → Ring) : (s.updRing k r f).ring k r = f (s.ring k r) := by
  simp [State.updRing, State.ring]
@[simp] theorem State.updCq_cq (s : State) (k q : Nat) (f : Cq → Cq) : (s.updCq k q f).cq k q = f (s.cq k q) := by
  simp [State.updCq, State.cq]
@[simp] theorem State.updRxp_rxp (s : State) (k p : Nat) (f : Rxp → Rxp) : (s.updRxp k p f).rxp k p = f (s.rxp k p) := by
  simp [State.updRxp, State.rxp]
@[simp] theorem Trk.updHub_hub (t : Trk) (p : Nat) (f : Hub → Hub) : (t.updHub p f).hub p = f (t.hub p) := by
  simp [Trk.updHub, Trk.hub]
theorem Trk.updHub_hub_ne (t : Trk) {q p : Nat} (h : q ≠ p) (f : Hub → Hub) : (t.updHub p f).hub q = t.hub q := by
  simp [Trk.updHub, Trk.hub, Tab.get_upd_ne h]

/-! The end of a command: `commitEvents` touches the event rings and the list of events only. -/

theorem commitEvents_keeps {α : Type} (P : State → α) (hs : ∀ s, P { s with stage := [] } = P s)
    (hc : ∀ (s : State) k f, P (s.updCrew k f) = P s) (s : State) : P (commitEvents s) = P s := by
  unfold commitEvents
  suffices h : ∀ (l : List (Nat × Event)) (u : State),
      P (l.foldl (fun s x => s.updCrew x.1 (·.pushEvent x.2)) u) = P u by rw [h, hs]
  intro l
  induction l with
  | nil => intro u; rfl
  | cons x l ih => intro u; rw [List.foldl_cons, ih, hc]

@[simp] theorem commitEvents_pins (s : State) : (commitEvents s).pins = s.pins :=
  commitEvents_keeps (·.pins) (fun _ => rfl) (fun _ _ _ => rfl) s
@[simp] theorem commitEvents_straps (s : State) : (commitEvents s).straps = s.straps :=
  commitEvents_keeps (·.straps) (fun _ => rfl) (fun _ _ _ => rfl) s
@[simp] theorem commitEvents_fuse (s : State) : (commitEvents s).fuse = s.fuse :=
  commitEvents_keeps (·.fuse) (fun _ => rfl) (fun _ _ _ => rfl) s
@[simp] theorem commitEvents_shadow (s : State) : (commitEvents s).shadow = s.shadow :=
  commitEvents_keeps (·.shadow) (fun _ => rfl) (fun _ _ _ => rfl) s
@[simp] theorem commitEvents_pwr (s : State) : (commitEvents s).pwr = s.pwr :=
  commitEvents_keeps (·.pwr) (fun _ => rfl) (fun _ _ _ => rfl) s
@[simp] theorem commitEvents_cal (s : State) : (commitEvents s).cal = s.cal :=
  commitEvents_keeps (·.cal) (fun _ => rfl) (fun _ _ _ => rfl) s
@[simp] theorem commitEvents_img (s : State) : (commitEvents s).img = s.img :=
  commitEvents_keeps (·.img) (fun _ => rfl) (fun _ _ _ => rfl) s
@[simp] theorem commitEvents_pci (s : State) : (commitEvents s).pci = s.pci :=
  commitEvents_keeps (·.pci) (fun _ => rfl) (fun _ _ _ => rfl) s
@[simp] theorem commitEvents_tim (s : State) : (commitEvents s).tim = s.tim :=
  commitEvents_keeps (·.tim) (fun _ => rfl) (fun _ _ _ => rfl) s
@[simp] theorem commitEvents_trks (s : State) : (commitEvents s).trks = s.trks :=
  commitEvents_keeps (·.trks) (fun _ => rfl) (fun _ _ _ => rfl) s
@[simp] theorem commitEvents_ros (s : State) : (commitEvents s).ros = s.ros :=
  commitEvents_keeps (·.ros) (fun _ => rfl) (fun _ _ _ => rfl) s
@[simp] theorem commitEvents_ctxs (s : State) : (commitEvents s).ctxs = s.ctxs :=
  commitEvents_keeps (·.ctxs) (fun _ => rfl) (fun _ _ _ => rfl) s
@[simp] theorem commitEvents_cox (s : State) : (commitEvents s).cox = s.cox :=
  commitEvents_keeps (·.cox) (fun _ => rfl) (fun _ _ _ => rfl) s
@[simp] theorem commitEvents_cmd (s : State) : (commitEvents s).cmd = s.cmd :=
  commitEvents_keeps (·.cmd) (fun _ => rfl) (fun _ _ _ => rfl) s
@[simp] theorem commitEvents_fetchPtr (s : State) : (commitEvents s).fetchPtr = s.fetchPtr :=
  commitEvents_keeps (·.fetchPtr) (fun _ => rfl) (fun _ _ _ => rfl) s
@[simp] theorem commitEvents_xfers (s : State) : (commitEvents s).xfers = s.xfers :=
  commitEvents_keeps (·.xfers) (fun _ => rfl) (fun _ _ _ => rfl) s
@[simp] theorem commitEvents_seq (s : State) : (commitEvents s).seq = s.seq :=
  commitEvents_keeps (·.seq) (fun _ => rfl) (fun _ _ _ => rfl) s
@[simp] theorem commitEvents_cells (s : State) : (commitEvents s).cells = s.cells :=
  commitEvents_keeps (·.cells) (fun _ => rfl) (fun _ _ _ => rfl) s
@[simp] theorem commitEvents_chs (s : State) : (commitEvents s).chs = s.chs :=
  commitEvents_keeps (·.chs) (fun _ => rfl) (fun _ _ _ => rfl) s
@[simp] theorem commitEvents_arbs (s : State) : (commitEvents s).arbs = s.arbs :=
  commitEvents_keeps (·.arbs) (fun _ => rfl) (fun _ _ _ => rfl) s
@[simp] theorem commitEvents_tdm (s : State) : (commitEvents s).tdm = s.tdm :=
  commitEvents_keeps (·.tdm) (fun _ => rfl) (fun _ _ _ => rfl) s
@[simp] theorem commitEvents_jtag (s : State) : (commitEvents s).jtag = s.jtag :=
  commitEvents_keeps (·.jtag) (fun _ => rfl) (fun _ _ _ => rfl) s
@[simp] theorem commitEvents_frame (s : State) : (commitEvents s).frame = s.frame :=
  commitEvents_keeps (·.frame) (fun _ => rfl) (fun _ _ _ => rfl) s
@[simp] theorem commitEvents_freeCtr (s : State) : (commitEvents s).freeCtr = s.freeCtr :=
  commitEvents_keeps (·.freeCtr) (fun _ => rfl) (fun _ _ _ => rfl) s
@[simp] theorem commitEvents_out (s : State) : (commitEvents s).out = s.out :=
  commitEvents_keeps (·.out) (fun _ => rfl) (fun _ _ _ => rfl) s
@[simp] theorem commitEvents_pending (s : State) : (commitEvents s).pending = s.pending :=
  commitEvents_keeps (·.pending) (fun _ => rfl) (fun _ _ _ => rfl) s

/-- What `pushEvent` leaves alone: all but the event ring. -/
theorem Crew.pushEvent_evt (c : Crew) (ev : Event) : ∃ e, c.pushEvent ev = { c with evt := e } := by
  unfold Crew.pushEvent
  split
  · exact ⟨_, rfl⟩
  · split <;> exact ⟨_, rfl⟩

/-- A crew's registers but its event ring are kept by the end of a command. -/
theorem commitEvents_crew_evt (s : State) (k : Nat) : ∃ e, (commitEvents s).crew k = { s.crew k with evt := e } := by
  unfold commitEvents
  suffices h : ∀ (l : List (Nat × Event)) (u : State),
      ∃ e, (l.foldl (fun s x => s.updCrew x.1 (·.pushEvent x.2)) u).crew k = { u.crew k with evt := e } from h _ _
  intro l
  induction l with
  | nil => intro u; exact ⟨_, rfl⟩
  | cons x l ih =>
    intro u
    obtain ⟨e, he⟩ := ih (u.updCrew x.1 (·.pushEvent x.2))
    rw [List.foldl_cons, he]
    by_cases hk : k = x.1
    · subst hk
      obtain ⟨e', he'⟩ := (u.crew x.1).pushEvent_evt x.2
      exact ⟨e, by rw [State.updCrew_crew, he']⟩
    · exact ⟨e, by rw [State.updCrew_crew_ne _ hk]⟩

/-- No event: nothing to deliver. -/
theorem commitEvents_none {s : State} (h : s.stage = []) : commitEvents s = s := by
  obtain ⟨⟩ := s
  subst h
  rfl

@[simp] theorem commitEvents_crew_st (s : State) (k : Nat) : ((commitEvents s).crew k).st = (s.crew k).st := by
  obtain ⟨e, h⟩ := commitEvents_crew_evt s k; rw [h]
@[simp] theorem commitEvents_crew_bme (s : State) (k : Nat) : ((commitEvents s).crew k).bme = (s.crew k).bme := by
  obtain ⟨e, h⟩ := commitEvents_crew_evt s k; rw [h]
@[simp] theorem commitEvents_crew_bcast (s : State) (k : Nat) : ((commitEvents s).crew k).bcast = (s.crew k).bcast := by
  obtain ⟨e, h⟩ := commitEvents_crew_evt s k; rw [h]
@[simp] theorem commitEvents_crew_bcastCounted (s : State) (k : Nat) : ((commitEvents s).crew k).bcastCounted = (s.crew k).bcastCounted := by
  obtain ⟨e, h⟩ := commitEvents_crew_evt s k; rw [h]
@[simp] theorem commitEvents_crew_resetDropped (s : State) (k : Nat) : ((commitEvents s).crew k).resetDropped = (s.crew k).resetDropped := by
  obtain ⟨e, h⟩ := commitEvents_crew_evt s k; rw [h]
@[simp] theorem commitEvents_crew_extraTc (s : State) (k : Nat) : ((commitEvents s).crew k).extraTc = (s.crew k).extraTc := by
  obtain ⟨e, h⟩ := commitEvents_crew_evt s k; rw [h]
@[simp] theorem commitEvents_crew_extraCells (s : State) (k : Nat) : ((commitEvents s).crew k).extraCells = (s.crew k).extraCells := by
  obtain ⟨e, h⟩ := commitEvents_crew_evt s k; rw [h]
@[simp] theorem commitEvents_crew_extraQueues (s : State) (k : Nat) : ((commitEvents s).crew k).extraQueues = (s.crew k).extraQueues := by
  obtain ⟨e, h⟩ := commitEvents_crew_evt s k; rw [h]
@[simp] theorem commitEvents_crew_share (s : State) (k : Nat) : ((commitEvents s).crew k).share = (s.crew k).share := by
  obtain ⟨e, h⟩ := commitEvents_crew_evt s k; rw [h]
@[simp] theorem commitEvents_crew_mboxUp (s : State) (k : Nat) : ((commitEvents s).crew k).mboxUp = (s.crew k).mboxUp := by
  obtain ⟨e, h⟩ := commitEvents_crew_evt s k; rw [h]
@[simp] theorem commitEvents_crew_mboxDn (s : State) (k : Nat) : ((commitEvents s).crew k).mboxDn = (s.crew k).mboxDn := by
  obtain ⟨e, h⟩ := commitEvents_crew_evt s k; rw [h]
@[simp] theorem commitEvents_crew_rings (s : State) (k : Nat) : ((commitEvents s).crew k).rings = (s.crew k).rings := by
  obtain ⟨e, h⟩ := commitEvents_crew_evt s k; rw [h]
@[simp] theorem commitEvents_crew_cqs (s : State) (k : Nat) : ((commitEvents s).crew k).cqs = (s.crew k).cqs := by
  obtain ⟨e, h⟩ := commitEvents_crew_evt s k; rw [h]
@[simp] theorem commitEvents_crew_vecs (s : State) (k : Nat) : ((commitEvents s).crew k).vecs = (s.crew k).vecs := by
  obtain ⟨e, h⟩ := commitEvents_crew_evt s k; rw [h]
@[simp] theorem commitEvents_crew_rxps (s : State) (k : Nat) : ((commitEvents s).crew k).rxps = (s.crew k).rxps := by
  obtain ⟨e, h⟩ := commitEvents_crew_evt s k; rw [h]
@[simp] theorem commitEvents_crew_stat (s : State) (k : Nat) : ((commitEvents s).crew k).stat = (s.crew k).stat := by
  obtain ⟨e, h⟩ := commitEvents_crew_evt s k; rw [h]
@[simp] theorem commitEvents_crew_epmSel (s : State) (k : Nat) : ((commitEvents s).crew k).epmSel = (s.crew k).epmSel := by
  obtain ⟨e, h⟩ := commitEvents_crew_evt s k; rw [h]
@[simp] theorem commitEvents_crew_bindReason (s : State) (k : Nat) : ((commitEvents s).crew k).bindReason = (s.crew k).bindReason := by
  obtain ⟨e, h⟩ := commitEvents_crew_evt s k; rw [h]
@[simp] theorem commitEvents_crew_ringPtr (s : State) (k : Nat) : ((commitEvents s).crew k).ringPtr = (s.crew k).ringPtr := by
  obtain ⟨e, h⟩ := commitEvents_crew_evt s k; rw [h]
@[simp] theorem commitEvents_crew_noWrites (s : State) (k : Nat) : ((commitEvents s).crew k).noWrites = (s.crew k).noWrites := by
  obtain ⟨e, h⟩ := commitEvents_crew_evt s k; rw [h]
@[simp] theorem commitEvents_crew_flrWait (s : State) (k : Nat) : ((commitEvents s).crew k).flrWait = (s.crew k).flrWait := by
  obtain ⟨e, h⟩ := commitEvents_crew_evt s k; rw [h]
@[simp] theorem commitEvents_trk (s : State) (n : Nat) : (commitEvents s).trk n = s.trk n := by simp [State.trk]
@[simp] theorem commitEvents_ctx (s : State) (n : Nat) : (commitEvents s).ctx n = s.ctx n := by simp [State.ctx]
@[simp] theorem commitEvents_ch (s : State) (n : Nat) : (commitEvents s).ch n = s.ch n := by simp [State.ch]
@[simp] theorem commitEvents_arb (s : State) (n : Nat) : (commitEvents s).arb n = s.arb n := by simp [State.arb]
@[simp] theorem commitEvents_xfer (s : State) (n : Nat) : (commitEvents s).xfer n = s.xfer n := by simp [State.xfer]
@[simp] theorem commitEvents_ring (s : State) (k n : Nat) : (commitEvents s).ring k n = s.ring k n := by
  simp [State.ring, Crew.ring]
@[simp] theorem commitEvents_cq (s : State) (k n : Nat) : (commitEvents s).cq k n = s.cq k n := by
  simp [State.cq, Crew.cq]
@[simp] theorem commitEvents_rxp (s : State) (k n : Nat) : (commitEvents s).rxp k n = s.rxp k n := by
  simp [State.rxp, Crew.rxp]
@[simp] theorem commitEvents_entry (s : State) (i : Nat) : (commitEvents s).entry i = s.entry i := by simp [State.entry]

end Sys2Proof.Machine
end

