-- ==== Sys2Proof/Laws/Answers.lean ====
section
/-! SUPPORT. How a command ends: what `commitEvents` does to a state with no event, one event or two, and how
`Only` passes through it. -/

namespace Sys2Proof.Machine

@[simp] theorem commitEvents_stage (s : State) : (commitEvents s).stage = [] := by
  have h : ∀ (l : List (Nat × Event)) (u : State), u.stage = [] →
      (l.foldl (fun s x => s.updCrew x.1 (·.pushEvent x.2)) u).stage = [] := by
    intro l
    induction l with
    | nil => exact fun u hu => hu
    | cons x l ih => exact fun u hu => ih _ hu
  exact h _ _ rfl

/-- With nothing raised the state is left alone. -/
theorem commit_quiet {s : State} (h : eventsDelivered s) : commitEvents s = s := commitEvents_none h

/-- One event raised: its function is told. -/
theorem commit_one {s : State} (h : eventsDelivered s) (fn : Nat) (name : EventName) (trunk detail : Nat) :
    commitEvents (raise fn name trunk detail s) = s.told fn name trunk detail := by
  have h' : s.stage = [] := h
  obtain ⟨⟩ := s
  simp only at h'
  subst h'
  rfl

/-- Two events raised in code order. -/
theorem commit_two {s : State} (h : eventsDelivered s) (f1 f2 : Nat) (n1 n2 : EventName) (t1 t2 d1 d2 : Nat)
    (hc : n1.code ≤ n2.code) :
    commitEvents (raise f2 n2 t2 d2 (raise f1 n1 t1 d1 s)) = (s.told f1 n1 t1 d1).told f2 n2 t2 d2 := by
  have h' : s.stage = [] := h
  have hn : ¬ n2.code < n1.code := Nat.not_lt.mpr hc
  obtain ⟨⟩ := s
  simp only at h'
  subst h'
  simp only [commitEvents, raise, sortEvents, List.nil_append, List.cons_append, List.foldl_cons, List.foldl_nil,
    insertEvent, hn, if_false]
  rfl

theorem Only.refl (f : Part → Bool) (s : State) : Only f s s := by
  intro p _; cases p <;> rfl

theorem Part.same_trans {p : Part} {s t u : State} (h1 : p.same s t) (h2 : p.same t u) : p.same s u := by
  cases p <;> exact Eq.trans h2 h1

theorem Only.trans {f : Part → Bool} {s t u : State} (h1 : Only f s t) (h2 : Only f t u) : Only f s u :=
  fun p hp => Part.same_trans (h1 p hp) (h2 p hp)

theorem Only.mono {f g : Part → Bool} {s t : State} (h : Only f s t) (hfg : ∀ p, g p = false → f p = false) :
    Only g s t := fun p hp => h p (hfg p hp)

/-- Delivering events touches event rings only. -/
theorem only_commitEvents (s : State) : Only (fun p => p matches .evt _) s (commitEvents s) := by
  intro p hp
  cases p
  case crew k =>
    obtain ⟨e, h⟩ := commitEvents_crew_evt s k
    simp only [Part.same, h]
  case evt k => exact absurd hp (by simp)
  all_goals simp only [Part.same, State.trk, State.ctx, State.ch, State.arb, commitEvents_trks, commitEvents_ctxs,
    commitEvents_chs, commitEvents_arbs, commitEvents_pins, commitEvents_straps, commitEvents_fuse,
    commitEvents_shadow, commitEvents_pwr, commitEvents_cal, commitEvents_img, commitEvents_pci, commitEvents_tim,
    commitEvents_ros, commitEvents_cox, commitEvents_cmd, commitEvents_fetchPtr, commitEvents_xfers,
    commitEvents_seq, commitEvents_cells, commitEvents_tdm, commitEvents_jtag, commitEvents_frame, commitEvents_freeCtr,
    commitEvents_out, commitEvents_pending]

/-- Telling a function touches its event ring only. -/
theorem only_told (s : State) (fn : Nat) (name : EventName) (trunk detail : Nat) :
    Only (fun p => p ∈ [.evt fn]) s (s.told fn name trunk detail) := by
  intro p hp
  cases p
  case evt k =>
    have hk : k ≠ fn := by intro h; subst h; simp at hp
    simp only [Part.same, State.told, State.updCrew_crew_ne _ hk]
  case crew k =>
    by_cases hk : k = fn
    · subst hk
      obtain ⟨e, he⟩ := (s.crew k).pushEvent_evt ⟨name, trunk, detail, s.tim.ns⟩
      simp only [Part.same, State.told, State.updCrew_crew, he]
    · simp only [Part.same, State.told, State.updCrew_crew_ne _ hk]
  all_goals rfl

end Sys2Proof.Machine
end

