-- ==== Sys2Proof/Laws/Base.lean ====
section
/-! SUPPORT. What most operations leave alone: one lemma for each operation of Machine/.  `State.base` collects what
only resets, supplies, fuse blowing, frame boundaries and seconds change. -/

set_option linter.unusedSimpArgs false

namespace Sys2Proof.Machine
/-- What few commands change: the fuses and their shadow, the straps, the pins, the start-up stage, device time, the
frame count, and the queue. -/
def State.base (s : State) : Fuses × Fuses × Straps × Pins × Stage × Nat × Nat × List Instr :=
  (s.fuse, s.shadow, s.straps, s.pins, s.pwr.stage, s.tim.ns, s.frame, s.pending)

theorem base_foldl {α : Type} {g : State → α → State} {l : List α} {s t : State}
    (h : ∀ s x, (g s x).base = s.base) (h0 : s.base = t.base) : (l.foldl g s).base = t.base := by
  induction l generalizing s with
  | nil => exact h0
  | cons x l ih => exact ih ((h s x).trans h0)

theorem base_pwr (s : State) (x : Pwr) (h : x.stage = s.pwr.stage) : ({ s with pwr := x } : State).base = s.base := by
  simp [State.base, h]
theorem base_cal (s : State) (x : Cal) : ({ s with cal := x } : State).base = s.base := rfl
theorem base_img (s : State) (x : Img) : ({ s with img := x } : State).base = s.base := rfl
theorem base_pci (s : State) (x : Pci) : ({ s with pci := x } : State).base = s.base := rfl
theorem base_tim (s : State) (x : Tim) (h : x.ns = s.tim.ns) : ({ s with tim := x } : State).base = s.base := by
  simp [State.base, h]
theorem base_trks (s : State) (x : Tab Trk) : ({ s with trks := x } : State).base = s.base := rfl
theorem base_ros (s : State) (x : Ros) : ({ s with ros := x } : State).base = s.base := rfl
theorem base_ctxs (s : State) (x : Tab Ctx) : ({ s with ctxs := x } : State).base = s.base := rfl
theorem base_cox (s : State) (x : Cox) : ({ s with cox := x } : State).base = s.base := rfl
theorem base_crews (s : State) (x : Tab Crew) : ({ s with crews := x } : State).base = s.base := rfl
theorem base_cmd (s : State) (x : CrwCmd) : ({ s with cmd := x } : State).base = s.base := rfl
theorem base_fetchPtr (s : State) (x : Nat) : ({ s with fetchPtr := x } : State).base = s.base := rfl
theorem base_xfers (s : State) (x : List (Nat × Xfer)) : ({ s with xfers := x } : State).base = s.base := rfl
theorem base_seq (s : State) (x : Nat) : ({ s with seq := x } : State).base = s.base := rfl
theorem base_cells (s : State) (x : Cells) : ({ s with cells := x } : State).base = s.base := rfl
theorem base_chs (s : State) (x : Tab Ch) : ({ s with chs := x } : State).base = s.base := rfl
theorem base_arbs (s : State) (x : Tab Arb) : ({ s with arbs := x } : State).base = s.base := rfl
theorem base_tdm (s : State) (x : Tdm) : ({ s with tdm := x } : State).base = s.base := rfl
theorem base_jtag (s : State) (x : Jtag) : ({ s with jtag := x } : State).base = s.base := rfl
theorem base_stage (s : State) (x : List (Nat × Event)) : ({ s with stage := x } : State).base = s.base := rfl
theorem base_freeCtr (s : State) (x : Nat) : ({ s with freeCtr := x } : State).base = s.base := rfl
theorem base_out (s : State) (x : List Output) : ({ s with out := x } : State).base = s.base := rfl
theorem base_setTrk (s : State) (n : Nat) (t : Trk) : (s.setTrk n t).base = s.base := rfl
theorem base_updTrk (s : State) (n : Nat) (f : Trk → Trk) : (s.updTrk n f).base = s.base := rfl
theorem base_setCrew (s : State) (k : Nat) (c : Crew) : (s.setCrew k c).base = s.base := rfl
theorem base_updCrew (s : State) (k : Nat) (f : Crew → Crew) : (s.updCrew k f).base = s.base := rfl
theorem base_updRing (s : State) (k r : Nat) (f : Ring → Ring) : (s.updRing k r f).base = s.base := rfl
theorem base_updCq (s : State) (k q : Nat) (f : Cq → Cq) : (s.updCq k q f).base = s.base := rfl
theorem base_updRxp (s : State) (k p : Nat) (f : Rxp → Rxp) : (s.updRxp k p f).base = s.base := rfl
theorem base_setCtx (s : State) (c : Nat) (x : Ctx) : (s.setCtx c x).base = s.base := rfl
theorem base_updCtx (s : State) (c : Nat) (f : Ctx → Ctx) : (s.updCtx c f).base = s.base := rfl
theorem base_setCh (s : State) (c : Nat) (x : Ch) : (s.setCh c x).base = s.base := rfl
theorem base_updCh (s : State) (c : Nat) (f : Ch → Ch) : (s.updCh c f).base = s.base := rfl
theorem base_updArb (s : State) (a : Nat) (f : Arb → Arb) : (s.updArb a f).base = s.base := rfl
theorem base_setXfer (s : State) (i : Nat) (x : Xfer) : (s.setXfer i x).base = s.base := rfl
theorem base_setEntry (s : State) (i : Nat) (e : Entry) : (s.setEntry i e).base = s.base := rfl
theorem base_updXfer (s : State) (i : Nat) (f : Xfer → Xfer) : (s.updXfer i f).base = s.base := by
  unfold State.updXfer; split <;> rfl
theorem base_updEntry (s : State) (i : Nat) (f : Entry → Entry) : (s.updEntry i f).base = s.base := by
  unfold State.updEntry; split <;> rfl
theorem base_snd {α : Type} {p : α × State} {a : α} {t : State} (h : p = (a, t)) : t.base = p.2.base := by rw [h]

--no state reqBit
theorem base_raise (fn : Nat) (name : EventName) (trunk detail : Nat) (s : State) : ((raise fn name trunk detail s)).base = s.base := by
  simp only [raise, base_tim, base_stage]

theorem base_raiseM (name : EventName) (detail : Nat) (s : State) : ((raiseM name detail s)).base = s.base := by
  simp only [raiseM, base_raise]

theorem base_raiseBoth (fn : Nat) (name : EventName) (trunk detail : Nat) (s : State) : ((raiseBoth fn name trunk detail s)).base = s.base := by
  simp only [raiseBoth, base_raise, apply_ite State.base, ite_self]

theorem base_commitEvents (s : State) : ((commitEvents s)).base = s.base := by
  unfold commitEvents
  repeat' (first | with_reducible rfl | (simp only [base_updCrew, base_stage, apply_ite State.base, ite_self]; done) | split | (with_reducible refine base_foldl ?_ ?_) | (intro _ _))

theorem base_emit (o : Output) (s : State) : ((emit o s)).base = s.base := by
  simp only [emit, base_out]

theorem base_sendBlock (ch : Channel) (data : List Byte) (s : State) : ((sendBlock ch data s)).base = s.base := by
  simp only [sendBlock, base_emit, base_tdm]

theorem base_sendMsg (ch : Channel) (n : Nat) (o : Output) (s : State) : ((sendMsg ch n o s)).base = s.base := by
  unfold sendMsg
  repeat' (first | with_reducible rfl | (simp only [base_emit, base_sendBlock, apply_ite State.base, ite_self]; done) | split | (with_reducible refine base_foldl ?_ ?_) | (intro _ _))

theorem base_sendBytes (ch : Channel) (b : List Byte) (s : State) : ((sendBytes ch b s)).base = s.base := by
  unfold sendBytes
  repeat' (first | with_reducible rfl | (simp only [base_sendBlock, apply_ite State.base, ite_self]; done) | split | (with_reducible refine base_foldl ?_ ?_) | (intro _ _))

theorem base_logAer (fn : Option Nat) (addr : Addr) (kind : AerKind) (s : State) : ((logAer fn addr kind s)).base = s.base := by
  simp only [logAer, base_emit, base_pci]

theorem base_enqueue (req fn : Nat) (b : HostBody) (s : State) : ((enqueue req fn b s)).base = s.base := by
  simp only [enqueue, base_pci]

theorem base_sendVector (fn v : Nat) (s : State) : ((sendVector fn v s)).base = s.base := by
  simp only [sendVector, base_enqueue, base_updCrew, base_pci, apply_ite State.base, ite_self]

theorem base_issueMessage (fn v : Nat) (s : State) : ((issueMessage fn v s)).base = s.base := by
  simp only [issueMessage, base_emit, base_updCrew, base_tim]

theorem base_signalVector (fn v : Nat) (s : State) : ((signalVector fn v s)).base = s.base := by
  simp only [signalVector, base_sendVector, base_updCrew, apply_ite State.base, ite_self]

theorem base_freeValue (s : State) : ((freeValue s).2).base = s.base := by
  simp only [freeValue, base_freeCtr]

theorem base_cfgReject (fn offset : Nat) (s : State) : ((cfgReject fn offset s)).base = s.base := by
  simp only [cfgReject, base_raise]

theorem base_takeCells (owner : Nat) (tag : QTag) (x0 : Nat) (x1 : State) : ((takeCells owner tag x0 x1).2).base = x1.base := by
  induction x0 generalizing x1 with
  | zero => rfl
  | succ n ih => unfold takeCells; simp only [freeValue]; rw [ih]; rfl

theorem base_releaseCells (l : List Nat) (s : State) : ((releaseCells l s)).base = s.base := by
  simp only [releaseCells, base_cells]

theorem base_releaseTag (tag : QTag) (s : State) : ((releaseTag tag s)).base = s.base := by
  simp only [releaseTag, base_releaseCells, base_cells]

theorem base_fillCells (it : Item) (s : State) : ((fillCells it s)).base = s.base := by
  simp only [fillCells, base_cells]

theorem base_linkCells (l : List Nat) (s : State) : ((linkCells l s)).base = s.base := by
  simp only [linkCells, base_cells]

theorem base_sendRead (r : HostRead) (s : State) : ((sendRead r s)).base = s.base := by
  unfold sendRead; split <;> simp only [base_emit, base_pci]

theorem base_askRead (req : Nat) (r : HostRead) (s : State) : ((askRead req r s)).base = s.base := by
  simp only [askRead, base_enqueue]

theorem base_freeTag (t : Nat) (s : State) : ((freeTag t s)).base = s.base := by
  simp only [freeTag, base_pci]

theorem base_dropQueued (p : HostReq → Bool) (s : State) : ((dropQueued p s)).base = s.base := by
  simp only [dropQueued, base_pci]

theorem base_useGrant (a : Nat) (s : State) : ((useGrant a s)).base = s.base := by
  unfold useGrant; split <;> simp only [base_updArb]

theorem base_clearCuts (a : Nat) (p : Nat → Bool) (s : State) : ((clearCuts a p s)).base = s.base := by
  simp only [clearCuts, base_updArb]

theorem base_discardReads (p : ReadFor → Bool) (s : State) : ((discardReads p s)).base = s.base := by
  simp only [discardReads, base_dropQueued, base_pci]

theorem base_orphanTxns (i n : Nat) (s : State) : ((orphanTxns i n s)).base = s.base := by
  simp only [orphanTxns, base_updTrk]

theorem base_dropXferWork (i : Nat) (x : Xfer) (s : State) : ((dropXferWork i x s)).base = s.base := by
  unfold dropXferWork; split <;> simp only [base_releaseTag, base_discardReads, base_orphanTxns, base_updCh]

theorem base_ctlAnswer (use : CtlUse) (st : Nat) (dataIn : List Byte) (s : State) : ((ctlAnswer use st dataIn s)).base = s.base := by
  unfold ctlAnswer; split <;> simp only [base_updTrk, base_ros]

theorem base_completeXfer (i st bytes : Nat) (s : State) : ((completeXfer i st bytes s)).base = s.base := by
  unfold completeXfer
  repeat' (first | with_reducible rfl | (simp only [base_dropXferWork, base_ctlAnswer, base_updTrk, base_setXfer, base_updRing, base_xfers, apply_ite State.base, ite_self]; done) | split)

theorem base_endXfer (i st : Nat) (s : State) : ((endXfer i st s)).base = s.base := by
  unfold endXfer; split <;> simp only [base_completeXfer]

theorem base_endWhere (p : Nat → Xfer → Bool) (st : Nat) (s : State) : ((endWhere p st s)).base = s.base := by
  unfold endWhere
  repeat' (first | with_reducible rfl | (simp only [base_endXfer, base_xfers, apply_ite State.base, ite_self]; done) | split | (with_reducible refine base_foldl ?_ ?_) | (intro _ _))

theorem base_abortWhere (p : Nat → Xfer → Bool) (st : Nat) (s : State) : ((abortWhere p st s)).base = s.base := by
  unfold abortWhere
  repeat' (first | with_reducible rfl | (simp only [base_endXfer, base_updXfer, base_xfers, apply_ite State.base, ite_self]; done) | split | (with_reducible refine base_foldl ?_ ?_) | (intro _ _))

theorem base_haltRing (k r st index : Nat) (s : State) : ((haltRing k r st index s)).base = s.base := by
  simp only [haltRing, base_raiseBoth, base_discardReads, base_updRing]

theorem base_failXfer (i st : Nat) (s : State) : ((failXfer i st s)).base = s.base := by
  unfold failXfer
  repeat' (first | with_reducible rfl | (simp only [base_completeXfer, base_endXfer, base_haltRing, base_updXfer, apply_ite State.base, ite_self]; done) | split)

theorem base_finishLine (i st : Nat) (s : State) : ((finishLine i st s)).base = s.base := by
  unfold finishLine
  repeat' (first | with_reducible rfl | (simp only [base_endXfer, base_updXfer, apply_ite State.base, ite_self]; done) | split)

theorem base_startCtl (n addr hub : Nat) (use : CtlUse) (setup dataOut : List Byte) (s : State) : ((startCtl n addr hub use setup dataOut s)).base = s.base := by
  unfold startCtl; split <;> simp only [base_setXfer, base_xfers, base_seq]

theorem base_giveTag (i : Nat) (s : State) : ((giveTag i s)).base = s.base := by
  unfold giveTag
  repeat' (first | with_reducible rfl | (simp only [base_updTrk, base_setXfer, base_setEntry, apply_ite State.base, ite_self]; done) | split)

theorem base_hubRequest (n h : Nat) (use : CtlUse) (code value index : Nat) (s : State) : ((hubRequest n h use code value index s)).base = s.base := by
  unfold hubRequest; split <;> simp only [base_ctlAnswer, base_startCtl]

theorem base_updCtxs (p : Nat → Ctx → Bool) (f : Ctx → Ctx) (s : State) : ((updCtxs p f s)).base = s.base := by
  unfold updCtxs
  repeat' (first | with_reducible rfl | (simp only [base_updCtx, base_ctxs, apply_ite State.base, ite_self]; done) | split | (with_reducible refine base_foldl ?_ ?_) | (intro _ _))

theorem base_freeCtx (c : Nat) (s : State) : ((freeCtx c s)).base = s.base := by
  unfold freeCtx
  repeat' (first | with_reducible rfl | (simp only [base_setCtx, base_updCh, apply_ite State.base, ite_self]; done) | (split <;> try (rename_i h; replace h := base_snd h; simp only [base_setCtx, base_updCh] at h)) | (simp only [base_setCtx, base_updCh, *]; done) | (simp only [base_setCtx, base_updCh]))

theorem base_detachEntry (i st : Nat) (spareUrgent : Bool) (s : State) : ((detachEntry i st spareUrgent s)).base = s.base := by
  unfold detachEntry; split <;> simp only [base_endWhere, base_updCtxs, base_setEntry]

theorem base_detachAll (l : List (Nat × Entry)) (st : Nat) (spareUrgent : Bool) (s : State) : ((detachAll l st spareUrgent s)).base = s.base := by
  unfold detachAll
  repeat' (first | with_reducible rfl | (simp only [base_detachEntry, apply_ite State.base, ite_self]; done) | split | (with_reducible refine base_foldl ?_ ?_) | (intro _ _))

theorem base_endSleepCmd (n st : Nat) (s : State) : ((endSleepCmd n st s)).base = s.base := by
  unfold endSleepCmd
  repeat' (first | with_reducible rfl | (simp only [base_ros, apply_ite State.base, ite_self]; done) | split)

theorem base_rosDone (st : Nat) (s : State) : ((rosDone st s)).base = s.base := by
  unfold rosDone; split <;> simp only [base_ros]

theorem base_rosDoneAt (n : Nat) (pos : Nat × Nat) (st : Nat) (s : State) : ((rosDoneAt n pos st s)).base = s.base := by
  unfold rosDoneAt
  repeat' (first | with_reducible rfl | (simp only [base_rosDone, base_ros, apply_ite State.base, ite_self]; done) | split)

theorem base_undoNew (a : Attach) (s : State) : ((undoNew a s)).base = s.base := by
  unfold undoNew
  repeat' (first
    | with_reducible rfl
    | (simp only [base_freeCtx, base_ros, base_ctxs, apply_ite State.base, ite_self]; done)
    | (split <;> try (rename_i h; replace h := base_snd h; simp only [base_freeCtx, base_ros, base_ctxs] at h))
    | (with_reducible refine base_foldl ?_ ?_)
    | with_reducible exact True.intro
    | (intro _ _)
    | (intro _)
    | (simp only [base_freeCtx, base_ros, base_ctxs, *]; done)
    | (simp only [base_freeCtx, base_ros, base_ctxs])
    | (simp only [State.base]; done))

theorem base_dropAttaches (n st : Nat) (gone : Nat → Nat → Bool) (s : State) : ((dropAttaches n st gone s)).base = s.base := by
  unfold dropAttaches
  repeat' (first | with_reducible rfl | (simp only [base_rosDoneAt, base_undoNew, base_updTrk, base_xfers, apply_ite State.base, ite_self]; done) | split | (with_reducible refine base_foldl ?_ ?_) | (intro _ _))

theorem base_pruneFar (n k : Nat) (s : State) : ((pruneFar n k s)).base = s.base := by
  unfold pruneFar
  repeat' (first | with_reducible rfl | (simp only [base_raise, base_hubRequest, base_detachAll, base_endSleepCmd, base_dropAttaches, base_updTrk, base_ros, apply_ite State.base, ite_self]; done) | (split <;> try (rename_i h; replace h := base_snd h; simp only [base_raise, base_hubRequest, base_detachAll, base_endSleepCmd, base_dropAttaches, base_updTrk, base_ros] at h)) | (simp only [base_raise, base_hubRequest, base_detachAll, base_endSleepCmd, base_dropAttaches, base_updTrk, base_ros, *]; done) | (simp only [base_raise, base_hubRequest, base_detachAll, base_endSleepCmd, base_dropAttaches, base_updTrk, base_ros]))

theorem base_quarantine (n : Nat) (s : State) : ((quarantine n s)).base = s.base := by
  simp only [quarantine, base_raise, base_detachAll, base_endSleepCmd, base_dropAttaches, base_updTrk, base_ros, apply_ite State.base, ite_self]

theorem base_ownerIfLast (n addr : Nat) (s : State) : ((ownerIfLast n addr s)).base = s.base := by
  unfold ownerIfLast
  repeat' (first | with_reducible rfl | (simp only [base_setEntry, base_ctxs, apply_ite State.base, ite_self]; done) | split)

theorem base_reqDomain (d : Nat) (s : State) : ((reqDomain d s)).base = s.base := by
  simp only [reqDomain, base_pwr, apply_ite State.base, ite_self]

theorem base_offDomain (d : Nat) (s : State) : ((offDomain d s)).base = s.base := by
  unfold offDomain
  repeat' (first
    | with_reducible rfl
    | (simp only [base_updTrk, base_pwr, base_trks, base_tdm, apply_ite State.base, ite_self]; done)
    | (split <;> try (rename_i h; replace h := base_snd h; simp only [base_updTrk, base_pwr, base_trks, base_tdm] at h))
    | (with_reducible refine base_foldl ?_ ?_)
    | with_reducible exact True.intro
    | (intro _ _)
    | (intro _)
    | (simp only [base_updTrk, base_pwr, base_trks, base_tdm, *]; done)
    | (simp only [base_updTrk, base_pwr, base_trks, base_tdm])
    | (simp only [State.base]; done))

theorem base_startCheck (s : State) : ((startCheck s)).base = s.base := by
  simp only [startCheck, base_raiseM, base_pwr, base_img, apply_ite State.base, ite_self]

theorem base_enterLoader (t : Option Word) (s : State) : ((enterLoader t s)).base = s.base := by
  unfold enterLoader; split <;> simp only [base_raiseM, base_startCheck, base_pwr, base_img]

theorem base_calForce (k : Nat) (s : State) : ((calForce k s)).base = s.base := by
  simp only [calForce, base_raiseM, base_cal, apply_ite State.base, ite_self]

theorem base_calWrite (k : Nat) (v : Int) (s : State) : ((calWrite k v s)).base = s.base := by
  simp only [calWrite, base_calForce, base_cal, apply_ite State.base, ite_self]

theorem base_calBoundary (s : State) : ((calBoundary s)).base = s.base := by
  unfold calBoundary
  repeat' (first | with_reducible rfl | (simp only [base_calForce, apply_ite State.base, ite_self]; done) | split | (with_reducible refine base_foldl ?_ ?_) | (intro _ _))

theorem base_calClear (s : State) : ((calClear s)).base = s.base := by
  unfold calClear
  repeat' (first | with_reducible rfl | (simp only [base_calWrite, apply_ite State.base, ite_self]; done) | split | (with_reducible refine base_foldl ?_ ?_) | (intro _ _))

theorem base_calSetup (s : State) : ((calSetup s)).base = s.base := by
  unfold calSetup
  repeat' (first | with_reducible rfl | (simp only [base_raiseM, base_cal, apply_ite State.base, ite_self]; done) | split | (with_reducible refine base_foldl ?_ ?_) | (intro _ _))

theorem base_calLoad (l : List (Nat × Int)) (s : State) : ((calLoad l s)).base = s.base := by
  unfold calLoad
  repeat' (first
    | with_reducible rfl
    | (simp only [base_raiseM, base_calForce, base_cal, apply_ite State.base, ite_self]; done)
    | (split <;> try (rename_i h; replace h := base_snd h; simp only [base_raiseM, base_calForce, base_cal] at h))
    | (with_reducible refine base_foldl ?_ ?_)
    | with_reducible exact True.intro
    | (intro _ _)
    | (intro _)
    | (simp only [base_raiseM, base_calForce, base_cal, *]; done)
    | (simp only [base_raiseM, base_calForce, base_cal])
    | (simp only [State.base]; done))

theorem base_tempLeft (s : State) : ((tempLeft s)).base = s.base := by
  simp only [tempLeft, base_raiseM, base_cal, apply_ite State.base, ite_self]

theorem base_vmonChange (v : Nat) (s : State) : ((vmonChange v s)).base = s.base := by
  unfold vmonChange
  repeat' (first | with_reducible rfl | (simp only [base_raiseM, base_cal, base_out, apply_ite State.base, ite_self]; done) | split)

theorem base_ringEnable (acc : Acc) (k r : Nat) (s : State) : ((ringEnable acc k r s)).base = s.base := by
  simp only [ringEnable, base_cfgReject, base_updRing, apply_ite State.base, ite_self]

theorem base_sweepEnts  (x0 : Nat) (x1 : List (List Byte)) (x2 : Nat) (x3 : State) : ((sweepEnts x0 x1 x2 x3).2).base = x3.base := by
  induction x0 generalizing x1 x3 with
  | zero => rfl
  | succ n ih =>
    unfold sweepEnts
    split
    · exact ih _ _
    · simp only [freeValue]; exact ih _ _

theorem base_sweepRing (k r st : Nat) (s : State) : ((sweepRing k r st s)).base = s.base := by
  simp only [sweepRing, base_sweepEnts, base_updRing]

theorem base_ringStopDone (k r : Nat) (s : State) : ((ringStopDone k r s)).base = s.base := by
  simp only [ringStopDone, base_raiseBoth, base_updRing, apply_ite State.base, ite_self]

theorem base_ringShutdown (acc : Acc) (k r : Nat) (s : State) : ((ringShutdown acc k r s)).base = s.base := by
  simp only [ringShutdown, base_discardReads, base_abortWhere, base_sweepRing, base_ringStopDone, base_updRing, apply_ite State.base, ite_self]

theorem base_ringRestart (acc : Acc) (k r : Nat) (s : State) : ((ringRestart acc k r s)).base = s.base := by
  simp only [ringRestart, base_updRing, apply_ite State.base, ite_self]

theorem base_cqEnableOp (acc : Acc) (k q : Nat) (s : State) : ((cqEnableOp acc k q s)).base = s.base := by
  simp only [cqEnableOp, base_cfgReject, base_updCq, apply_ite State.base, ite_self]

theorem base_cqDisableOp (acc : Acc) (k q : Nat) (s : State) : ((cqDisableOp acc k q s)).base = s.base := by
  simp only [cqDisableOp, base_cfgReject, base_updCq, apply_ite State.base, ite_self]

theorem base_ringPi (acc : Acc) (k r : Nat) (p : Word) (s : State) : ((ringPi acc k r p s)).base = s.base := by
  simp only [ringPi, base_raise, base_sweepRing, base_ringStopDone, base_updRing, apply_ite State.base, ite_self]

theorem base_cqHead (acc : Acc) (k q : Nat) (h : Word) (s : State) : ((cqHead acc k q h s)).base = s.base := by
  simp only [cqHead, base_raise, base_updCq, apply_ite State.base, ite_self]

theorem base_tryQueue (i : Nat) (s : State) : ((tryQueue i s)).base = s.base := by
  unfold tryQueue
  repeat' (first | with_reducible rfl | (simp only [base_setXfer, apply_ite State.base, ite_self]; done) | split)

theorem base_tryQueues (p : Xfer → Bool) (s : State) : ((tryQueues p s)).base = s.base := by
  unfold tryQueues
  repeat' (first | with_reducible rfl | (simp only [base_tryQueue, base_xfers, apply_ite State.base, ite_self]; done) | split | (with_reducible refine base_foldl ?_ ?_) | (intro _ _))

theorem base_reachCox (i : Nat) (s : State) : ((reachCox i s)).base = s.base := by
  unfold reachCox
  repeat' (first | with_reducible rfl | (simp only [base_endXfer, base_tryQueue, apply_ite State.base, ite_self]; done) | split)

theorem base_takeEntry (k r : Nat) (d : Desc) (outcome : Option (Nat × Nat)) (s : State) : ((takeEntry k r d outcome s)).base = s.base := by
  simp only [takeEntry, base_updRing]

theorem base_malformedOutcome (s : State) : ((malformedOutcome s).2).base = s.base := by
  simp only [malformedOutcome, base_freeValue]

theorem base_takeDesc (k r : Nat) (bytes : List Byte) (s : State) : ((takeDesc k r bytes s)).base = s.base := by
  unfold takeDesc
  repeat' (first | with_reducible rfl | (simp only [base_raiseBoth, base_askRead, base_reachCox, base_takeEntry, base_malformedOutcome, base_setXfer, base_updRing, base_xfers, base_seq, apply_ite State.base, ite_self]; done) | (split <;> try (rename_i h; replace h := base_snd h; simp only [base_raiseBoth, base_askRead, base_reachCox, base_takeEntry, base_malformedOutcome, base_setXfer, base_updRing, base_xfers, base_seq] at h)) | (simp only [base_raiseBoth, base_askRead, base_reachCox, base_takeEntry, base_malformedOutcome, base_setXfer, base_updRing, base_xfers, base_seq, *]; done) | (simp only [base_raiseBoth, base_askRead, base_reachCox, base_takeEntry, base_malformedOutcome, base_setXfer, base_updRing, base_xfers, base_seq]))

theorem base_readDescs (k r : Nat) (s : State) : ((readDescs k r s)).base = s.base := by
  simp only [readDescs, base_askRead, base_updRing]

theorem base_fetchOnce (s : State) : ((fetchOnce s)).base = s.base := by
  unfold fetchOnce
  repeat' (first | with_reducible rfl | (simp only [base_takeDesc, base_readDescs, base_updCrew, base_fetchPtr, apply_ite State.base, ite_self]; done) | split)

theorem base_descArrived (k r n : Nat) (data : Option (List Byte)) (s : State) : ((descArrived k r n data s)).base = s.base := by
  unfold descArrived
  repeat' (first | with_reducible rfl | (simp only [base_haltRing, base_updRing, apply_ite State.base, ite_self]; done) | split)

theorem base_malformedXfer (i : Nat) (s : State) : ((malformedXfer i s)).base = s.base := by
  simp only [malformedXfer, base_completeXfer, base_malformedOutcome]

theorem base_linkArrived (i : Nat) (data : Option (List Byte)) (s : State) : ((linkArrived i data s)).base = s.base := by
  unfold linkArrived
  repeat' (first | with_reducible rfl | (simp only [base_askRead, base_failXfer, base_reachCox, base_malformedXfer, base_setXfer, apply_ite State.base, ite_self]; done) | split)

theorem base_putRecord (k r : Nat) (x : Record) (s : State) : ((putRecord k r x s)).base = s.base := by
  simp only [putRecord, base_signalVector, base_updRing, base_updCq, base_xfers]

theorem base_writeRecord (k r : Nat) (s : State) : ((writeRecord k r s)).base = s.base := by
  unfold writeRecord
  repeat' (first | with_reducible rfl | (simp only [base_raise, base_emit, base_useGrant, base_ringStopDone, base_putRecord, base_updCq, apply_ite State.base, ite_self]; done) | (split <;> try (rename_i h; replace h := base_snd h; simp only [base_raise, base_emit, base_useGrant, base_ringStopDone, base_putRecord, base_updCq] at h)) | (simp only [base_raise, base_emit, base_useGrant, base_ringStopDone, base_putRecord, base_updCq, *]; done) | (simp only [base_raise, base_emit, base_useGrant, base_ringStopDone, base_putRecord, base_updCq]))

theorem base_resetRecords (k r : Nat) (s : State) : ((resetRecords k r s)).base = s.base := by
  unfold resetRecords
  simp only []
  repeat' (first
    | with_reducible rfl
    | (simp only [apply_ite State.base, ite_self, base_putRecord, base_enqueue, freeValue, base_freeCtr]; done)
    | split)

theorem base_queueWrites (c : Nat) (l : List (Addr × List Byte)) (s : State) : ((queueWrites c l s)).base = s.base := by
  unfold queueWrites
  repeat' (first | with_reducible rfl | (simp only [base_enqueue, apply_ite State.base, ite_self]; done) | split | (with_reducible refine base_foldl ?_ ?_) | (intro _ _))

theorem base_chEnable (acc : Acc) (k c : Nat) (s : State) : ((chEnable acc k c s)).base = s.base := by
  simp only [chEnable, base_cfgReject, base_cqHead, base_updCh, apply_ite State.base, ite_self]

theorem base_askDesc (c : Nat) (s : State) : ((askDesc c s)).base = s.base := by
  simp only [askDesc, base_askRead, base_updCh]

theorem base_chFetch (c : Nat) (s : State) : ((chFetch c s)).base = s.base := by
  simp only [chFetch, base_askDesc, apply_ite State.base, ite_self]

theorem base_freeBytes  (x0 : Nat) (x1 : State) : ((freeBytes x0 x1).2).base = x1.base := by
  induction x0 generalizing x1 with
  | zero => rfl
  | succ n ih => unfold freeBytes; simp only [freeValue]; rw [ih]; rfl

theorem base_chFrame (c : Nat) (s : State) : ((chFrame c s).2).base = s.base := by
  unfold chFrame; split <;> simp only [base_freeValue]

theorem base_writeBack (c : Nat) (body : List Byte) (x : StreamRec) (s : State) : ((writeBack c body x s)).base = s.base := by
  simp only [writeBack, base_enqueue, base_queueWrites, base_updCh]

theorem base_abortBack (c : Nat) (s : State) : ((abortBack c s)).base = s.base := by
  unfold abortBack
  repeat' (first | with_reducible rfl | (simp only [base_askDesc, base_chFrame, base_writeBack, apply_ite State.base, ite_self]; done) | (split <;> try (rename_i h; replace h := base_snd h; simp only [base_askDesc, base_chFrame, base_writeBack] at h)) | (simp only [base_askDesc, base_chFrame, base_writeBack, *]; done) | (simp only [base_askDesc, base_chFrame, base_writeBack]))

theorem base_chStopDone (c : Nat) (s : State) : ((chStopDone c s)).base = s.base := by
  simp only [chStopDone, base_raise, base_updCh, apply_ite State.base, ite_self]

theorem base_chAbortRest (c : Nat) (s : State) : ((chAbortRest c s)).base = s.base := by
  simp only [chAbortRest, base_chFrame, base_abortBack, base_chStopDone, base_updCh, apply_ite State.base, ite_self]

theorem base_chComplete (c : Nat) (x : StreamRec) (s : State) : ((chComplete c x s)).base = s.base := by
  simp only [chComplete, base_writeBack, base_updCh, apply_ite State.base, ite_self]

theorem base_backDone (c : Nat) (irq : Bool) (s : State) : ((backDone c irq s)).base = s.base := by
  simp only [backDone, base_signalVector, base_chFetch, base_chAbortRest, base_updCh, apply_ite State.base, ite_self]

theorem base_chHalt (c : Nat) (s : State) : ((chHalt c s)).base = s.base := by
  simp only [chHalt, base_raiseBoth, base_updCh, apply_ite State.base, ite_self]

theorem base_chStop (acc : Acc) (k c : Nat) (s : State) : ((chStop acc k c s)).base = s.base := by
  simp only [chStop, base_discardReads, base_chAbortRest, base_updCh, apply_ite State.base, ite_self]

theorem base_chRestart (acc : Acc) (k c : Nat) (s : State) : ((chRestart acc k c s)).base = s.base := by
  simp only [chRestart, base_chFetch, base_updCh, apply_ite State.base, ite_self]

theorem base_chPi (acc : Acc) (k c : Nat) (p : Word) (s : State) : ((chPi acc k c p s)).base = s.base := by
  simp only [chPi, base_raise, base_chFetch, base_chAbortRest, base_updCh, apply_ite State.base, ite_self]

theorem base_chCqHead (acc : Acc) (k c : Nat) (v : Word) (s : State) : ((chCqHead acc k c v s)).base = s.base := by
  simp only [chCqHead, base_raise, base_cqHead, base_updCh, apply_ite State.base, ite_self]

theorem base_unbindCtx (x : Nat) (s : State) : ((unbindCtx x s)).base = s.base := by
  unfold unbindCtx; split <;> simp only [base_updCtx, base_updCh]

theorem base_bindOp (k x c : Nat) (un : Bool) (s : State) : ((bindOp k x c un s)).base = s.base := by
  simp only [bindOp, base_unbindCtx, base_updCrew, base_updCtx, base_updCh, apply_ite State.base, ite_self]

theorem base_chMalformed (c : Nat) (s : State) : ((chMalformed c s)).base = s.base := by
  simp only [chMalformed, base_freeValue, base_chComplete]

theorem base_chNothing (c x st : Nat) (irq : Bool) (s : State) : ((chNothing c x st irq s)).base = s.base := by
  simp only [chNothing, base_freeValue, base_chFrame, base_chComplete]

theorem base_chDescArrived (c : Nat) (data : Option (List Byte)) (s : State) : ((chDescArrived c data s)).base = s.base := by
  unfold chDescArrived
  repeat' (first | with_reducible rfl | (simp only [base_freeBytes, base_chAbortRest, base_chHalt, base_chMalformed, base_chNothing, base_updCh, apply_ite State.base, ite_self]; done) | split)

theorem base_chCopy (c x : Nat) (d : List Byte) (st : Nat) (s : State) : ((chCopy c x d st s)).base = s.base := by
  simp only [chCopy, base_askRead, base_useGrant, base_queueWrites, base_chComplete, base_updCh, base_pci, apply_ite State.base, ite_self]

theorem base_epmError (x : Nat) (ecc : Ecc) (s : State) : ((epmError x ecc s)).base = s.base := by
  unfold epmError
  repeat' (first | with_reducible rfl | (simp only [base_raiseBoth, base_updCtx, base_updCh, base_cells, apply_ite State.base, ite_self]; done) | (split <;> try (rename_i h; replace h := base_snd h; simp only [base_raiseBoth, base_updCtx, base_updCh, base_cells] at h)) | (simp only [base_raiseBoth, base_updCtx, base_updCh, base_cells, *]; done) | (simp only [base_raiseBoth, base_updCtx, base_updCh, base_cells]))

theorem base_capture (c : Nat) (ecc : Ecc) (s : State) : ((capture c ecc s)).base = s.base := by
  unfold capture
  repeat' (first | with_reducible rfl | (simp only [base_useGrant, base_chCopy, base_epmError, base_updCtx, base_updCh, apply_ite State.base, ite_self]; done) | split)

theorem base_readSample (c : Nat) (ecc : Ecc) (s : State) : ((readSample c ecc s)).base = s.base := by
  unfold readSample
  repeat' (first | with_reducible rfl | (simp only [base_useGrant, base_chNothing, base_chCopy, base_epmError, apply_ite State.base, ite_self]; done) | split)

theorem base_askSource (c : Nat) (d : List Byte) (s : State) : ((askSource c d s)).base = s.base := by
  simp only [askSource, base_askRead, base_updCh]

theorem base_stageOp (c : Nat) (s : State) : ((stage c s)).base = s.base := by
  unfold stage
  repeat' (first | with_reducible rfl | (simp only [base_useGrant, base_chComplete, base_chMalformed, base_chNothing, base_askSource, base_updCtx, apply_ite State.base, ite_self]; done) | split)

theorem base_sourceArrived (c : Nat) (data : Option (List Byte)) (s : State) : ((sourceArrived c data s)).base = s.base := by
  unfold sourceArrived
  repeat' (first | with_reducible rfl | (simp only [base_chComplete, base_chHalt, base_askSource, base_updCh, apply_ite State.base, ite_self]; done) | split)

theorem base_flushDone (c : Nat) (ok : Bool) (s : State) : ((flushDone c ok s)).base = s.base := by
  unfold flushDone
  repeat' (first | with_reducible rfl | (simp only [base_chComplete, base_chHalt, base_updCh, apply_ite State.base, ite_self]; done) | split)

theorem base_streamRecord (c : Nat) (s : State) : ((streamRecord c s)).base = s.base := by
  unfold streamRecord
  repeat' (first | with_reducible rfl | (simp only [base_raise, base_emit, base_signalVector, base_useGrant, base_chFetch, base_chAbortRest, base_updCh, apply_ite State.base, ite_self]; done) | (split <;> try (rename_i h; replace h := base_snd h; simp only [base_raise, base_emit, base_signalVector, base_useGrant, base_chFetch, base_chAbortRest, base_updCh] at h)) | (simp only [base_raise, base_emit, base_signalVector, base_useGrant, base_chFetch, base_chAbortRest, base_updCh, *]; done) | (simp only [base_raise, base_emit, base_signalVector, base_useGrant, base_chFetch, base_chAbortRest, base_updCh]))

theorem base_releaseChannel (c : Nat) (s : State) : ((releaseChannel c s)).base = s.base := by
  unfold releaseChannel; split <;> simp only [base_discardReads, base_updCh, base_updXfer, base_seq]

theorem base_walkOn (i : Nat) (s : State) : ((walkOn i s)).base = s.base := by
  unfold walkOn
  repeat' (first | with_reducible rfl | (simp only [base_askRead, base_setXfer, apply_ite State.base, ite_self]; done) | split)

theorem base_walkArrived (i : Nat) (data : Option (List Byte)) (s : State) : ((walkArrived i data s)).base = s.base := by
  unfold walkArrived
  repeat' (first | with_reducible rfl | (simp only [base_failXfer, base_malformedXfer, base_walkOn, base_setXfer, apply_ite State.base, ite_self]; done) | split)

theorem base_channelTake (c : Nat) (s : State) : ((channelTake c s)).base = s.base := by
  unfold channelTake
  repeat' (first | with_reducible rfl | (simp only [base_tryQueues, base_releaseChannel, base_walkOn, base_updCh, base_updXfer, base_xfers, apply_ite State.base, ite_self]; done) | (split <;> try (rename_i h; replace h := base_snd h; simp only [base_tryQueues, base_releaseChannel, base_walkOn, base_updCh, base_updXfer, base_xfers] at h)) | (simp only [base_tryQueues, base_releaseChannel, base_walkOn, base_updCh, base_updXfer, base_xfers, *]; done) | (simp only [base_tryQueues, base_releaseChannel, base_walkOn, base_updCh, base_updXfer, base_xfers]))

theorem base_chRead (c i : Nat) (x : Xfer) (s : State) : ((chRead c i x s)).base = s.base := by
  unfold chRead
  repeat' (first | with_reducible rfl | (simp only [base_sendRead, base_walkOn, base_updCh, base_setXfer, base_pci, apply_ite State.base, ite_self]; done) | split)

theorem base_setItems (i : Nat) (items : List Item) (s : State) : ((setItems i items s)).base = s.base := by
  simp only [setItems, base_linkCells, base_updXfer, base_cells]

theorem base_releaseItems (i : Nat) (gone : List Nat) (rest : List Item) (s : State) : ((releaseItems i gone rest s)).base = s.base := by
  unfold releaseItems
  repeat' (first | with_reducible rfl | (simp only [base_releaseCells, base_setItems, base_updXfer, apply_ite State.base, ite_self]; done) | split)

theorem base_commitTo (i : Nat) (it : Item) (s : State) : ((commitTo i it s)).base = s.base := by
  unfold commitTo
  repeat' (first | with_reducible rfl | (simp only [base_fillCells, base_setItems, base_updXfer, apply_ite State.base, ite_self]; done) | split)

theorem base_chWrite (c i : Nat) (x : Xfer) (s : State) : ((chWrite c i x s)).base = s.base := by
  unfold chWrite
  repeat' (first | with_reducible rfl | (simp only [base_emit, base_endXfer, base_walkOn, base_releaseItems, base_updCh, base_setXfer, base_cells, apply_ite State.base, ite_self]; done) | split)

theorem base_beatOut (c i : Nat) (x : Xfer) (s : State) : ((beatOut c i x s)).base = s.base := by
  simp only [beatOut, base_takeCells, base_commitTo, base_updCh, base_setXfer, base_cells, apply_ite State.base, ite_self]

theorem base_chBeat (c : Nat) (s : State) : ((chBeat c s)).base = s.base := by
  unfold chBeat
  repeat' (first | with_reducible rfl | (simp only [base_beatOut, base_updCh, base_setXfer, apply_ite State.base, ite_self]; done) | split)

theorem base_chRequest (c : Nat) (s : State) : ((chRequest c s)).base = s.base := by
  unfold chRequest
  repeat' (first | with_reducible rfl | (simp only [base_chRead, base_chWrite, apply_ite State.base, ite_self]; done) | split)

theorem base_payloadArrived (t c i : Nat) (data : Option (List Byte)) (s : State) : ((payloadArrived t c i data s)).base = s.base := by
  unfold payloadArrived; split <;> simp only [base_failXfer, base_updCh]

theorem base_freeIndex (used : Nat → Bool) (n : Nat) (s : State) : ((freeIndex used n s).2).base = s.base := by
  simp only [freeIndex, base_freeValue]

theorem base_allocCtx (i ep k : Nat) (s : State) : ((allocCtx i ep k s).2).base = s.base := by
  unfold allocCtx
  repeat' (first | with_reducible rfl | (simp only [base_freeIndex, base_setCtx, base_setEntry, apply_ite State.base, ite_self]; done) | (split <;> try (rename_i h; replace h := base_snd h; simp only [base_freeIndex, base_setCtx, base_setEntry] at h)) | (simp only [base_freeIndex, base_setCtx, base_setEntry, *]; done) | (simp only [base_freeIndex, base_setCtx, base_setEntry]))

theorem base_grantCtx (n a ep k : Nat) (s : State) : ((grantCtx n a ep k s).2).base = s.base := by
  unfold grantCtx
  repeat' (first | with_reducible rfl | (simp only [base_raise, base_allocCtx, apply_ite State.base, ite_self]; done) | (split <;> try (rename_i h; replace h := base_snd h; simp only [base_raise, base_allocCtx] at h)) | (simp only [base_raise, base_allocCtx, *]; done) | (simp only [base_raise, base_allocCtx]))

theorem base_grantSeeded (i : Nat) (s : State) : ((grantSeeded i s)).base = s.base := by
  unfold grantSeeded
  repeat' (first | with_reducible rfl | (simp only [base_raise, base_grantCtx, apply_ite State.base, ite_self]; done) | split | (with_reducible refine base_foldl ?_ ?_) | (intro _ _))

theorem base_revokeCtx (c : Nat) (s : State) : ((revokeCtx c s)).base = s.base := by
  simp only [revokeCtx, base_raise, base_freeCtx, base_ownerIfLast, apply_ite State.base, ite_self]

theorem base_abortStages (c : Nat) (s : State) : ((abortStages c s)).base = s.base := by
  unfold abortStages
  repeat' (first | with_reducible rfl | (simp only [base_chComplete, base_chs, apply_ite State.base, ite_self]; done) | split | (with_reducible refine base_foldl ?_ ?_) | (intro _ _))

theorem base_flushPort (k p : Nat) (s : State) : ((flushPort k p s)).base = s.base := by
  unfold flushPort
  repeat' (first | with_reducible rfl | (simp only [base_emit, base_releaseTag, base_updRxp, apply_ite State.base, ite_self]; done) | split | (with_reducible refine base_foldl ?_ ?_) | (intro _ _))

theorem base_closePortNow (k p : Nat) (s : State) : ((closePortNow k p s)).base = s.base := by
  unfold closePortNow
  repeat' (first | with_reducible rfl | (simp only [base_raise, base_orphanTxns, base_flushPort, base_updCtx, base_updRxp, base_xfers, apply_ite State.base, ite_self]; done) | (split <;> try (rename_i h; replace h := base_snd h; simp only [base_raise, base_orphanTxns, base_flushPort, base_updCtx, base_updRxp, base_xfers] at h)) | (simp only [base_raise, base_orphanTxns, base_flushPort, base_updCtx, base_updRxp, base_xfers, *]; done) | (simp only [base_raise, base_orphanTxns, base_flushPort, base_updCtx, base_updRxp, base_xfers]))

theorem base_closePortDone (k p : Nat) (s : State) : ((closePortDone k p s)).base = s.base := by
  simp only [closePortDone, base_closePortNow, apply_ite State.base, ite_self]

theorem base_closePort (k p : Nat) (s : State) : ((closePort k p s)).base = s.base := by
  unfold closePort; split <;> simp only [base_closePortDone, base_updRxp]

theorem base_beginRevoke (c : Nat) (s : State) : ((beginRevoke c s)).base = s.base := by
  unfold beginRevoke
  repeat' (first | with_reducible rfl | (simp only [base_abortWhere, base_abortStages, base_closePort, base_updCtx, apply_ite State.base, ite_self]; done) | (split <;> try (rename_i h; replace h := base_snd h; simp only [base_abortWhere, base_abortStages, base_closePort, base_updCtx] at h)) | (simp only [base_abortWhere, base_abortStages, base_closePort, base_updCtx, *]; done) | (simp only [base_abortWhere, base_abortStages, base_closePort, base_updCtx]))

theorem base_seedEntry (e : SeedEnt) (s : State) : ((seedEntry e s)).base = s.base := by
  unfold seedEntry
  repeat' (first | with_reducible rfl | (simp only [base_freeIndex, base_setEntry, base_ros, apply_ite State.base, ite_self]; done) | (split <;> try (rename_i h; replace h := base_snd h; simp only [base_freeIndex, base_setEntry, base_ros] at h)) | (simp only [base_freeIndex, base_setEntry, base_ros, *]; done) | (simp only [base_freeIndex, base_setEntry, base_ros]))

theorem base_imageDomains (im : Image) (s : State) : ((imageDomains im s)).base = s.base := by
  unfold imageDomains
  repeat' (first | with_reducible rfl | (simp only [base_reqDomain, base_offDomain, base_pwr, apply_ite State.base, ite_self]; done) | split | (with_reducible refine base_foldl ?_ ?_) | (intro _ _))

theorem base_clearChannels (s : State) : ((clearChannels s)).base = s.base := by
  unfold clearChannels
  repeat' (first
    | with_reducible rfl
    | (simp only [base_dropQueued, base_discardReads, base_releaseChannel, base_chs, apply_ite State.base, ite_self]; done)
    | (split <;> try (rename_i h; replace h := base_snd h; simp only [base_dropQueued, base_discardReads, base_releaseChannel, base_chs] at h))
    | (with_reducible refine base_foldl ?_ ?_)
    | with_reducible exact True.intro
    | (intro _ _)
    | (intro _)
    | (simp only [base_dropQueued, base_discardReads, base_releaseChannel, base_chs, *]; done)
    | (simp only [base_dropQueued, base_discardReads, base_releaseChannel, base_chs])
    | (simp only [State.base]; done))

theorem base_applyFull (im : Image) (source : Nat) (s : State) : ((applyFull im source s)).base = s.base := by
  unfold applyFull
  repeat' (first
    | with_reducible rfl
    | (simp only [base_updCtxs, base_calLoad, base_seedEntry, base_imageDomains, base_clearChannels, base_updTrk, base_updCrew, base_cal, base_img, base_crews, apply_ite State.base, ite_self]; done)
    | (split <;> try (rename_i h; replace h := base_snd h; simp only [base_updCtxs, base_calLoad, base_seedEntry, base_imageDomains, base_clearChannels, base_updTrk, base_updCrew, base_cal, base_img, base_crews] at h))
    | (with_reducible refine base_foldl ?_ ?_)
    | with_reducible exact True.intro
    | (intro _ _)
    | (intro _)
    | (simp only [base_updCtxs, base_calLoad, base_seedEntry, base_imageDomains, base_clearChannels, base_updTrk, base_updCrew, base_cal, base_img, base_crews, *]; done)
    | (simp only [base_updCtxs, base_calLoad, base_seedEntry, base_imageDomains, base_clearChannels, base_updTrk, base_updCrew, base_cal, base_img, base_crews])
    | (simp only [State.base]; done))

theorem base_applyDelta (im : Image) (n : Nat) (s : State) : ((applyDelta im n s)).base = s.base := by
  simp only [applyDelta, base_raiseM, base_img]

theorem base_endImg (reason : Nat) (s : State) : ((endImg reason s)).base = s.base := by
  unfold endImg; split <;> simp only [base_offDomain, base_img]

theorem base_failPush (reason : Nat) (s : State) : ((failPush reason s)).base = s.base := by
  unfold failPush
  repeat' (first | with_reducible rfl | (simp only [base_raiseM, base_endImg, base_img, apply_ite State.base, ite_self]; done) | split)

theorem base_refuseImg (reason : Nat) (s : State) : ((refuseImg reason s)).base = s.base := by
  unfold refuseImg
  repeat' (first | with_reducible rfl | (simp only [base_endImg, base_failPush, base_img, apply_ite State.base, ite_self]; done) | split)

theorem base_imgStart (op : Nat) (slotB : Bool) (s : State) : ((imgStart op slotB s)).base = s.base := by
  simp only [imgStart, base_reqDomain, base_refuseImg, base_pwr, base_img, apply_ite State.base, ite_self]

theorem base_updRun (f : ImgRun → ImgRun) (s : State) : ((updRun f s)).base = s.base := by
  simp only [updRun, base_img]

theorem base_pushRead (o want : Nat) (use : ReadFor) (s : State) : ((pushRead o want use s)).base = s.base := by
  simp only [pushRead, base_askRead, base_img, base_pci]

theorem base_pushNext (s : State) : ((pushNext s)).base = s.base := by
  unfold pushNext
  repeat' (first | with_reducible rfl | (simp only [base_updRun, base_pushRead, base_img, apply_ite State.base, ite_self]; done) | (split <;> try (rename_i h; replace h := base_snd h; simp only [base_updRun, base_pushRead, base_img] at h)) | (simp only [base_updRun, base_pushRead, base_img, *]; done) | (simp only [base_updRun, base_pushRead, base_img]))

theorem base_eraseBlock (fr : Nat) (slotB : Bool) (n : Nat) (s : State) : ((eraseBlock fr slotB n s)).base = s.base := by
  simp only [eraseBlock, base_emit]

theorem base_programAt (fr : Nat) (slotB : Bool) (o : Nat) (b : List Byte) (s : State) : ((programAt fr slotB o b s)).base = s.base := by
  simp only [programAt, base_emit]

theorem base_slotHeader (slotB : Bool) (s : State) : ((slotHeader slotB s)).base = s.base := by
  simp only [slotHeader, base_emit, apply_ite State.base, ite_self]

theorem base_slotReads (slotB : Bool) (b : List Byte) (s : State) : ((slotReads slotB b s)).base = s.base := by
  simp only [slotReads, base_emit, apply_ite State.base, ite_self]

theorem base_imgPowered (s : State) : ((imgPowered s)).base = s.base := by
  unfold imgPowered
  repeat' (first | with_reducible rfl | (simp only [base_endImg, base_updRun, base_pushNext, base_eraseBlock, base_slotHeader, base_img, apply_ite State.base, ite_self]; done) | split)

theorem base_imgFault (s : State) : ((imgFault s)).base = s.base := by
  unfold imgFault
  repeat' (first | with_reducible rfl | (simp only [base_freeValue, base_enterLoader, base_refuseImg, base_img, apply_ite State.base, ite_self]; done) | split)

theorem base_pushArrived (data : Option (List Byte)) (s : State) : ((pushArrived data s)).base = s.base := by
  unfold pushArrived
  repeat' (first | with_reducible rfl | (simp only [base_failPush, base_updRun, base_pushNext, base_img, apply_ite State.base, ite_self]; done) | split)

theorem base_storeFail (reason : Nat) (s : State) : ((storeFail reason s)).base = s.base := by
  unfold storeFail; split <;> simp only [base_updRun, base_eraseBlock, base_img]

theorem base_programPage (s : State) : ((programPage s)).base = s.base := by
  unfold programPage; split <;> simp only [base_programAt, base_img]

theorem base_storeArrived (data : Option (List Byte)) (s : State) : ((storeArrived data s)).base = s.base := by
  unfold storeArrived
  repeat' (first | with_reducible rfl | (simp only [base_updRun, base_pushRead, base_storeFail, base_programPage, base_img, apply_ite State.base, ite_self]; done) | split)

theorem base_storeStep (readBack : List Byte) (s : State) : ((storeStep readBack s)).base = s.base := by
  unfold storeStep
  repeat' (first | with_reducible rfl | (simp only [base_raiseM, base_emit, base_endImg, base_updRun, base_pushRead, base_eraseBlock, base_programAt, base_storeFail, base_programPage, base_img, apply_ite State.base, ite_self]; done) | split)

theorem base_slotChecked (flash : List Byte) (tUs : Word) (r : ImgRun) (s : State) : ((slotChecked flash tUs r s)).base = s.base := by
  unfold slotChecked
  repeat' (first | with_reducible rfl | (simp only [base_raiseM, base_offDomain, base_enterLoader, base_applyFull, base_updRun, base_slotHeader, base_slotReads, base_pwr, base_img, apply_ite State.base, ite_self]; done) | (split <;> try (rename_i h; replace h := base_snd h; simp only [base_raiseM, base_offDomain, base_enterLoader, base_applyFull, base_updRun, base_slotHeader, base_slotReads, base_pwr, base_img] at h)) | (simp only [base_raiseM, base_offDomain, base_enterLoader, base_applyFull, base_updRun, base_slotHeader, base_slotReads, base_pwr, base_img, *]; done) | (simp only [base_raiseM, base_offDomain, base_enterLoader, base_applyFull, base_updRun, base_slotHeader, base_slotReads, base_pwr, base_img]))

theorem base_pushChecked (r : ImgRun) (s : State) : ((pushChecked r s)).base = s.base := by
  unfold pushChecked
  repeat' (first | with_reducible rfl | (simp only [base_raiseM, base_applyFull, base_applyDelta, base_endImg, base_failPush, base_img, apply_ite State.base, ite_self]; done) | (split <;> try (rename_i h; replace h := base_snd h; simp only [base_raiseM, base_applyFull, base_applyDelta, base_endImg, base_failPush, base_img] at h)) | (simp only [base_raiseM, base_applyFull, base_applyDelta, base_endImg, base_failPush, base_img, *]; done) | (simp only [base_raiseM, base_applyFull, base_applyDelta, base_endImg, base_failPush, base_img]))

theorem base_bcastSettle (k : Nat) (s : State) : ((bcastSettle k s)).base = s.base := by
  simp only [bcastSettle, base_updCrew, base_trks, apply_ite State.base, ite_self]

theorem base_stopChannels (k : Nat) (s : State) : ((stopChannels k s)).base = s.base := by
  unfold stopChannels
  repeat' (first
    | with_reducible rfl
    | (simp only [base_dropQueued, base_clearCuts, base_discardReads, base_updCtxs, base_releaseChannel, base_setCh, apply_ite State.base, ite_self]; done)
    | (split <;> try (rename_i h; replace h := base_snd h; simp only [base_dropQueued, base_clearCuts, base_discardReads, base_updCtxs, base_releaseChannel, base_setCh] at h))
    | (with_reducible refine base_foldl ?_ ?_)
    | with_reducible exact True.intro
    | (intro _ _)
    | (intro _)
    | (simp only [base_dropQueued, base_clearCuts, base_discardReads, base_updCtxs, base_releaseChannel, base_setCh, *]; done)
    | (simp only [base_dropQueued, base_clearCuts, base_discardReads, base_updCtxs, base_releaseChannel, base_setCh])
    | (simp only [State.base]; done))

theorem base_resetXfers (k : Nat) (s : State) : ((resetXfers k s)).base = s.base := by
  unfold resetXfers
  repeat' (first | with_reducible rfl | (simp only [base_endXfer, base_updXfer, base_xfers, apply_ite State.base, ite_self]; done) | split | (with_reducible refine base_foldl ?_ ?_) | (intro _ _))

theorem base_beginReset (k : Nat) (tear noHost : Bool) (s : State) : ((beginReset k tear noHost s)).base = s.base := by
  unfold beginReset
  repeat' (first
    | with_reducible rfl
    | (simp only [base_dropQueued, base_discardReads, base_updCtxs, base_closePort, base_stopChannels, base_resetXfers, base_updCrew, apply_ite State.base, ite_self]; done)
    | (split <;> try (rename_i h; replace h := base_snd h; simp only [base_dropQueued, base_discardReads, base_updCtxs, base_closePort, base_stopChannels, base_resetXfers, base_updCrew] at h))
    | (with_reducible refine base_foldl ?_ ?_)
    | with_reducible exact True.intro
    | (intro _ _)
    | (intro _)
    | (simp only [base_dropQueued, base_discardReads, base_updCtxs, base_closePort, base_stopChannels, base_resetXfers, base_updCrew, *]; done)
    | (simp only [base_dropQueued, base_discardReads, base_updCtxs, base_closePort, base_stopChannels, base_resetXfers, base_updCrew])
    | (simp only [State.base]; done))

theorem base_clearCarry (k : Nat) (s : State) : ((clearCarry k s)).base = s.base := by
  unfold clearCarry
  repeat' (first
    | with_reducible rfl
    | (simp only [base_updTrk, base_updCrew, base_trks, apply_ite State.base, ite_self]; done)
    | (split <;> try (rename_i h; replace h := base_snd h; simp only [base_updTrk, base_updCrew, base_trks] at h))
    | (with_reducible refine base_foldl ?_ ?_)
    | with_reducible exact True.intro
    | (intro _ _)
    | (intro _)
    | (simp only [base_updTrk, base_updCrew, base_trks, *]; done)
    | (simp only [base_updTrk, base_updCrew, base_trks])
    | (simp only [State.base]; done))

theorem base_finishReset (k : Nat) (s : State) : ((finishReset k s)).base = s.base := by
  unfold finishReset
  repeat' (first
    | with_reducible rfl
    | (simp only [base_raiseM, base_endWhere, base_updCtxs, base_resetRecords, base_revokeCtx, base_closePortNow, base_bcastSettle, base_clearCarry, base_updCrew, base_ctxs, base_xfers, apply_ite State.base, ite_self]; done)
    | (split <;> try (rename_i h; replace h := base_snd h; simp only [base_raiseM, base_endWhere, base_updCtxs, base_resetRecords, base_revokeCtx, base_closePortNow, base_bcastSettle, base_clearCarry, base_updCrew, base_ctxs, base_xfers] at h))
    | (with_reducible refine base_foldl ?_ ?_)
    | with_reducible exact True.intro
    | (intro _ _)
    | (intro _)
    | (simp only [base_raiseM, base_endWhere, base_updCtxs, base_resetRecords, base_revokeCtx, base_closePortNow, base_bcastSettle, base_clearCarry, base_updCrew, base_ctxs, base_xfers, *]; done)
    | (simp only [base_raiseM, base_endWhere, base_updCtxs, base_resetRecords, base_revokeCtx, base_closePortNow, base_bcastSettle, base_clearCarry, base_updCrew, base_ctxs, base_xfers])
    | (simp only [State.base]; done))

theorem base_loseSlots (k : Nat) (s : State) : ((loseSlots k s)).base = s.base := by
  unfold loseSlots
  repeat' (first | with_reducible rfl | (simp only [base_updTrk, base_trks, apply_ite State.base, ite_self]; done) | split | (with_reducible refine base_foldl ?_ ?_) | (intro _ _))

theorem base_runReset (k : Nat) (tear noHost : Bool) (s : State) : ((runReset k tear noHost s)).base = s.base := by
  simp only [runReset, base_beginReset, base_finishReset, apply_ite State.base, ite_self]

theorem base_endCmd (op reason : Nat) (s : State) : ((endCmd op reason s)).base = s.base := by
  simp only [endCmd, base_cmd]

theorem base_crwOp (op : Nat) (f : State → Nat × State) (s : State) (hf : ∀ s, (f s).2.base = s.base) : ((crwOp op f s)).base = s.base := by
  unfold crwOp
  repeat' (first | with_reducible rfl | (simp only [base_endCmd, hf, base_img, base_cmd, apply_ite State.base, ite_self]; done) | split)

theorem base_crwBegin (op k : Nat) (f : State → Nat × State) (s : State) (hf : ∀ s, (f s).2.base = s.base) : ((crwBegin op k f s)).base = s.base := by
  unfold crwBegin
  repeat' (first | with_reducible rfl | (simp only [base_endCmd, hf, base_img, base_cmd, apply_ite State.base, ite_self]; done) | split)

theorem base_finishCreate (k : Nat) (s : State) : ((finishCreate k s)).base = s.base := by
  simp only [finishCreate, base_raiseM, base_runReset, base_updCrew, apply_ite State.base, ite_self]

theorem base_crwResetOp (op k : Nat) (tear : Bool) (s : State) : ((crwResetOp op k tear s)).base = s.base := by
  unfold crwResetOp
  repeat' (first
    | with_reducible rfl
    | (simp only [base_runReset, base_endCmd, base_crwBegin, base_cmd, apply_ite State.base, ite_self]; done)
    | (split <;> try (rename_i h; replace h := base_snd h; simp only [base_runReset, base_endCmd, base_crwBegin, base_cmd] at h))
    | (with_reducible refine base_foldl ?_ ?_)
    | (with_reducible refine (base_crwBegin _ _ _ _ ?_).trans ?_)
    | with_reducible exact True.intro
    | (intro _ _)
    | (intro _)
    | (simp only [base_runReset, base_endCmd, base_crwBegin, base_cmd, *]; done)
    | (simp only [base_runReset, base_endCmd, base_crwBegin, base_cmd])
    | (simp only [State.base]; done))

theorem base_setQuota (k : Nat) (s : State) : ((setQuota k s).2).base = s.base := by
  unfold setQuota
  repeat' (first | with_reducible rfl | (simp only [base_raise, base_updCrew, base_cmd, apply_ite State.base, ite_self]; done) | (split <;> try (rename_i h; replace h := base_snd h; simp only [base_raise, base_updCrew, base_cmd] at h)) | (simp only [base_raise, base_updCrew, base_cmd, *]; done) | (simp only [base_raise, base_updCrew, base_cmd]))

theorem base_setShareOp (k : Nat) (s : State) : ((setShareOp k s).2).base = s.base := by
  unfold setShareOp
  repeat' (first | with_reducible rfl | (simp only [base_updCrew, base_cmd, apply_ite State.base, ite_self]; done) | (split <;> try (rename_i h; replace h := base_snd h; simp only [base_updCrew, base_cmd] at h)) | (simp only [base_updCrew, base_cmd, *]; done) | (simp only [base_updCrew, base_cmd]))

theorem base_grantBcast (k : Nat) (s : State) : ((grantBcast k s).2).base = s.base := by
  unfold grantBcast
  repeat' (first | with_reducible rfl | (simp only [base_cfgReject, base_updCrew, apply_ite State.base, ite_self]; done) | split)

theorem base_withdrawBcast (k : Nat) (s : State) : ((withdrawBcast k s).2).base = s.base := by
  unfold withdrawBcast; split <;> simp only [base_abortWhere, base_bcastSettle, base_updCrew]

theorem base_revokeOp (k : Nat) (s : State) : ((revokeOp k s)).base = s.base := by
  unfold revokeOp
  repeat' (first
    | with_reducible rfl
    | (simp only [base_beginRevoke, base_crwBegin, base_cmd, apply_ite State.base, ite_self]; done)
    | (split <;> try (rename_i h; replace h := base_snd h; simp only [base_beginRevoke, base_crwBegin, base_cmd] at h))
    | (with_reducible refine base_foldl ?_ ?_)
    | (with_reducible refine (base_crwBegin _ _ _ _ ?_).trans ?_)
    | with_reducible exact True.intro
    | (intro _ _)
    | (intro _)
    | (simp only [base_beginRevoke, base_crwBegin, base_cmd, *]; done)
    | (simp only [base_beginRevoke, base_crwBegin, base_cmd])
    | (simp only [State.base]; done))

theorem base_cmdStep (s : State) : ((cmdStep s)).base = s.base := by
  unfold cmdStep
  repeat' (first | with_reducible rfl | (simp only [base_revokeCtx, base_finishReset, base_endCmd, base_finishCreate, base_cmd, apply_ite State.base, ite_self]; done) | split)

theorem base_strayResets (force : Bool) (s : State) : ((strayResets force s)).base = s.base := by
  unfold strayResets
  repeat' (first | with_reducible rfl | (simp only [base_finishReset, base_loseSlots, base_cmd, apply_ite State.base, ite_self]; done) | split | (with_reducible refine base_foldl ?_ ?_) | (intro _ _))

theorem base_vfFlrOp (k : Nat) (s : State) : ((vfFlrOp k s)).base = s.base := by
  unfold vfFlrOp
  repeat' (first | with_reducible rfl | (simp only [base_dropQueued, base_runReset, base_updCrew, base_pci, apply_ite State.base, ite_self]; done) | split)

theorem base_vfClear (s : State) : ((vfClear s)).base = s.base := by
  unfold vfClear
  repeat' (first | with_reducible rfl | (simp only [base_runReset, base_endCmd, base_updCrew, base_pci, base_cmd, apply_ite State.base, ite_self]; done) | split | (with_reducible refine base_foldl ?_ ?_) | (intro _ _))

theorem base_doorbell (k sender receiver : Nat) (get : Crew → Mbox) (set : Mbox → Crew → Crew) (len seq : Nat) (s : State) : ((doorbell k sender receiver get set len seq s)).base = s.base := by
  simp only [doorbell, base_raise, base_updCrew, base_seq, apply_ite State.base, ite_self]

theorem base_mbxAck (k sender : Nat) (get : Crew → Mbox) (set : Mbox → Crew → Crew) (seq : Nat) (s : State) : ((mbxAck k sender get set seq s)).base = s.base := by
  simp only [mbxAck, base_raise, base_updCrew, base_seq, apply_ite State.base, ite_self]

theorem base_createOp (k : Nat) (s : State) : ((createOp k s)).base = s.base := by
  unfold createOp
  repeat' (first
    | with_reducible rfl
    | (simp only [base_crwBegin, base_updCrew, apply_ite State.base, ite_self]; done)
    | (split <;> try (rename_i h; replace h := base_snd h; simp only [base_crwBegin, base_updCrew] at h))
    | (with_reducible refine base_foldl ?_ ?_)
    | (with_reducible refine (base_crwBegin _ _ _ _ ?_).trans ?_)
    | with_reducible exact True.intro
    | (intro _ _)
    | (intro _)
    | (simp only [base_crwBegin, base_updCrew, *]; done)
    | (simp only [base_crwBegin, base_updCrew])
    | (simp only [State.base]; done))

theorem base_grantOp (k : Nat) (s : State) : ((grantOp k s)).base = s.base := by
  unfold grantOp
  repeat' (first
    | with_reducible rfl
    | (simp only [base_grantCtx, base_crwOp, base_cmd, apply_ite State.base, ite_self]; done)
    | (split <;> try (rename_i h; replace h := base_snd h; simp only [base_grantCtx, base_crwOp, base_cmd] at h))
    | (with_reducible refine base_foldl ?_ ?_)
    | (with_reducible refine (base_crwOp _ _ _ ?_).trans ?_)
    | with_reducible exact True.intro
    | (intro _ _)
    | (intro _)
    | (simp only [base_grantCtx, base_crwOp, base_cmd, *]; done)
    | (simp only [base_grantCtx, base_crwOp, base_cmd])
    | (simp only [State.base]; done))

theorem base_upDoorbell (k len seq : Nat) (s : State) : ((upDoorbell k len seq s)).base = s.base := by
  simp only [upDoorbell, base_doorbell, base_seq, apply_ite State.base, ite_self]

theorem base_dnDoorbell (k len seq : Nat) (s : State) : ((dnDoorbell k len seq s)).base = s.base := by
  simp only [dnDoorbell, base_doorbell, base_seq, apply_ite State.base, ite_self]

theorem base_upAck (k seq : Nat) (s : State) : ((upAck k seq s)).base = s.base := by
  simp only [upAck, base_mbxAck, base_seq, apply_ite State.base, ite_self]

theorem base_dnAck (k seq : Nat) (s : State) : ((dnAck k seq s)).base = s.base := by
  simp only [dnAck, base_mbxAck, base_seq, apply_ite State.base, ite_self]

theorem base_almAddOp (c ilog2 phase : Nat) (s : State) : ((almAddOp c ilog2 phase s)).base = s.base := by
  unfold almAddOp
  repeat' (first | with_reducible rfl | (simp only [base_updCtx, base_cox, apply_ite State.base, ite_self]; done) | (split <;> try (rename_i h; replace h := base_snd h; simp only [base_updCtx, base_cox] at h)) | (simp only [base_updCtx, base_cox, *]; done) | (simp only [base_updCtx, base_cox]))

theorem base_almRemoveOp (c : Nat) (s : State) : ((almRemoveOp c s)).base = s.base := by
  simp only [almRemoveOp, base_updCtx, base_cox, apply_ite State.base, ite_self]

theorem base_almReadOp (c : Nat) (s : State) : ((almReadOp c s)).base = s.base := by
  simp only [almReadOp, base_cox, apply_ite State.base, ite_self]

theorem base_almBegin (op c ilog2 phase : Nat) (s : State) : ((almBegin op c ilog2 phase s)).base = s.base := by
  simp only [almBegin, base_almReadOp, base_cox, apply_ite State.base, ite_self]

theorem base_almComplete (s : State) : ((almComplete s)).base = s.base := by
  unfold almComplete
  repeat' (first | with_reducible rfl | (simp only [base_almAddOp, base_almRemoveOp, base_cox, apply_ite State.base, ite_self]; done) | split)

theorem base_placeHub (c : Nat) (s : State) : ((placeHub c s).2).base = s.base := by
  unfold placeHub
  repeat' (first | with_reducible rfl | (simp only [base_updCtx, base_ros, apply_ite State.base, ite_self]; done) | (split <;> try (rename_i h; replace h := base_snd h; simp only [base_updCtx, base_ros] at h)) | (simp only [base_updCtx, base_ros, *]; done) | (simp only [base_updCtx, base_ros]))

theorem base_almBoundary (s : State) : ((almBoundary s)).base = s.base := by
  simp only [almBoundary, base_updCtxs]

theorem base_replaceTails (n : Nat) (s : State) : ((replaceTails n s)).base = s.base := by
  unfold replaceTails
  repeat' (first
    | with_reducible rfl
    | (simp only [base_raise, base_updCtx, apply_ite State.base, ite_self]; done)
    | (split <;> try (rename_i h; replace h := base_snd h; simp only [base_raise, base_updCtx] at h))
    | (with_reducible refine base_foldl ?_ ?_)
    | with_reducible exact True.intro
    | (intro _ _)
    | (intro _)
    | (simp only [base_raise, base_updCtx, *]; done)
    | (simp only [base_raise, base_updCtx])
    | (simp only [State.base]; done))

theorem base_replaceHubEvents (s : State) : ((replaceHubEvents s)).base = s.base := by
  unfold replaceHubEvents
  repeat' (first
    | with_reducible rfl
    | (simp only [base_raise, base_updCtx, base_ros, apply_ite State.base, ite_self]; done)
    | (split <;> try (rename_i h; replace h := base_snd h; simp only [base_raise, base_updCtx, base_ros] at h))
    | (with_reducible refine base_foldl ?_ ?_)
    | with_reducible exact True.intro
    | (intro _ _)
    | (intro _)
    | (simp only [base_raise, base_updCtx, base_ros, *]; done)
    | (simp only [base_raise, base_updCtx, base_ros])
    | (simp only [State.base]; done))

theorem base_enterVigil (s : State) : ((enterVigil s)).base = s.base := by
  simp only [enterVigil, base_raiseM, base_tim]

theorem base_enterLocked (s : State) : ((enterLocked s)).base = s.base := by
  simp only [enterLocked, base_raiseM, base_tim]

theorem base_enterFreeRun (s : State) : ((enterFreeRun s)).base = s.base := by
  simp only [enterFreeRun, base_raiseM, base_tim]

theorem base_newSource (c : Nat) (s : State) : ((newSource c s)).base = s.base := by
  unfold newSource; split <;> simp only [base_raiseM, base_tim]

theorem base_timeSources (s : State) : ((timeSources s)).base = s.base := by
  unfold timeSources
  repeat' (first | with_reducible rfl | (simp only [base_raiseM, base_enterVigil, base_enterLocked, base_newSource, base_tim, apply_ite State.base, ite_self]; done) | (split <;> try (rename_i h; replace h := base_snd h; simp only [base_raiseM, base_enterVigil, base_enterLocked, base_newSource, base_tim] at h)) | (simp only [base_raiseM, base_enterVigil, base_enterLocked, base_newSource, base_tim, *]; done) | (simp only [base_raiseM, base_enterVigil, base_enterLocked, base_newSource, base_tim]))

theorem base_ppsEdge (stamp : Int) (s : State) : ((ppsEdge stamp s)).base = s.base := by
  simp only [ppsEdge, base_timeSources, base_tim, apply_ite State.base, ite_self]

theorem base_hopSample (n p h rtt : Nat) (s : State) : ((hopSample n p h rtt s)).base = s.base := by
  simp only [hopSample, base_raise, base_updTrk, base_freeCtr, apply_ite State.base, ite_self]

theorem base_timeSet (s : State) : ((timeSet s)).base = s.base := by
  simp only [timeSet, base_cfgReject, base_tim, apply_ite State.base, ite_self]

theorem base_mgrSample (value : Word) (s : State) : ((mgrSample value s)).base = s.base := by
  simp only [mgrSample, base_timeSources, base_tim, apply_ite State.base, ite_self]

theorem base_timLatch (s : State) : ((timLatch s)).base = s.base := by
  simp only [timLatch, base_tim, apply_ite State.base, ite_self]

theorem base_startPulse (s : State) : ((startPulse s)).base = s.base := by
  simp only [startPulse, base_tim, apply_ite State.base, ite_self]

theorem base_updEvt (fn : Nat) (f : EvRing → EvRing) (s : State) : ((updEvt fn f s)).base = s.base := by
  simp only [updEvt, base_updCrew]

theorem base_evtEnableOp (fn : Nat) (s : State) : ((evtEnableOp fn s)).base = s.base := by
  simp only [evtEnableOp, base_cfgReject, base_updEvt, apply_ite State.base, ite_self]

theorem base_evtDisableOp (fn : Nat) (s : State) : ((evtDisableOp fn s)).base = s.base := by
  simp only [evtDisableOp, base_updEvt, apply_ite State.base, ite_self]

theorem base_evtHead (fn : Nat) (h : Word) (s : State) : ((evtHead fn h s)).base = s.base := by
  simp only [evtHead, base_raise, base_updEvt, apply_ite State.base, ite_self]

theorem base_evtWrite (fn : Nat) (s : State) : ((evtWrite fn s)).base = s.base := by
  unfold evtWrite
  repeat' (first | with_reducible rfl | (simp only [base_emit, base_signalVector, base_useGrant, base_updEvt, apply_ite State.base, ite_self]; done) | (split <;> try (rename_i h; replace h := base_snd h; simp only [base_emit, base_signalVector, base_useGrant, base_updEvt] at h)) | (simp only [base_emit, base_signalVector, base_useGrant, base_updEvt, *]; done) | (simp only [base_emit, base_signalVector, base_useGrant, base_updEvt]))

theorem base_unmaskVector (fn v : Nat) (s : State) : ((unmaskVector fn v s)).base = s.base := by
  simp only [unmaskVector, base_sendVector, base_updCrew, apply_ite State.base, ite_self]

theorem base_setBme (fn : Nat) (on : Bool) (s : State) : ((setBme fn on s)).base = s.base := by
  unfold setBme
  repeat' (first | with_reducible rfl | (simp only [base_sendVector, base_updCrew, apply_ite State.base, ite_self]; done) | split | (with_reducible refine base_foldl ?_ ?_) | (intro _ _))

theorem base_updArbReq (a i : Nat) (f : ArbReq → ArbReq) (s : State) : ((updArbReq a i f s)).base = s.base := by
  simp only [updArbReq, base_updArb]

theorem base_endTenure (a bank : Nat) (t : Tenure) (s : State) : ((endTenure a bank t s)).base = s.base := by
  simp only [endTenure, base_updArb]

theorem base_setHolder (a bank : Nat) (t : Option Tenure) (s : State) : ((setHolder a bank t s)).base = s.base := by
  simp only [setHolder, base_updArb]

theorem base_zeroPart (bank : Nat) (s : State) : ((zeroPart bank s)).base = s.base := by
  unfold zeroPart; split <;> simp only [base_cells]

theorem base_issueHost (q : HostReq) (s : State) : ((issueHost q s)).base = s.base := by
  unfold issueHost
  repeat' (first | with_reducible rfl | (simp only [base_emit, base_issueMessage, base_sendRead, base_backDone, base_pci, apply_ite State.base, ite_self]; done) | split)

theorem base_hostUnit (i : Nat) (s : State) : ((hostUnit i s)).base = s.base := by
  unfold hostUnit
  repeat' (first | with_reducible rfl | (simp only [base_chRequest, base_issueHost, apply_ite State.base, ite_self]; done) | split)

theorem base_arbUnit (a bank i : Nat) (s : State) : ((arbUnit a bank i s)).base = s.base := by
  unfold arbUnit
  repeat' (first | with_reducible rfl | (simp only [base_chBeat, base_zeroPart, base_hostUnit, apply_ite State.base, ite_self]; done) | split)

theorem base_idleCycle (a bank : Nat) (t : Tenure) (still : Bool) (s : State) : ((idleCycle a bank t still s)).base = s.base := by
  simp only [idleCycle, base_updArbReq, base_endTenure, base_setHolder, apply_ite State.base, ite_self]

theorem base_unitCycle (a bank : Nat) (t : Tenure) (s : State) : ((unitCycle a bank t s)).base = s.base := by
  simp only [unitCycle, base_updArbReq, base_endTenure, base_setHolder, apply_ite State.base, ite_self]

theorem base_preempt (a bank : Nat) (seen : List Nat) (done : Bool) (s : State) : ((preempt a bank seen done s)).base = s.base := by
  unfold preempt
  repeat' (first | with_reducible rfl | (simp only [base_setHolder, base_updArb, apply_ite State.base, ite_self]; done) | split)

theorem base_holderCycle (a bank : Nat) (seen : List Nat) (unitDone : Bool) (s : State) : ((holderCycle a bank seen unitDone s)).base = s.base := by
  unfold holderCycle
  repeat' (first | with_reducible rfl | (simp only [base_arbUnit, base_idleCycle, base_unitCycle, base_preempt, apply_ite State.base, ite_self]; done) | split)

theorem base_dropWithdrawn (a bank : Nat) (seen : List Nat) (s : State) : ((dropWithdrawn a bank seen s)).base = s.base := by
  unfold dropWithdrawn
  repeat' (first | with_reducible rfl | (simp only [base_endTenure, base_updArb, apply_ite State.base, ite_self]; done) | split | (with_reducible refine base_foldl ?_ ?_) | (intro _ _))

theorem base_chooseWinner (a bank : Nat) (seen : List Nat) (s : State) : ((chooseWinner a bank seen s)).base = s.base := by
  unfold chooseWinner
  repeat' (first | with_reducible rfl | (simp only [base_setHolder, base_updArb, apply_ite State.base, ite_self]; done) | (split <;> try (rename_i h; replace h := base_snd h; simp only [base_setHolder, base_updArb] at h)) | (simp only [base_setHolder, base_updArb, *]; done) | (simp only [base_setHolder, base_updArb]))

theorem base_countWaits (a bank : Nat) (seen : List Nat) (s : State) : ((countWaits a bank seen s)).base = s.base := by
  unfold countWaits
  repeat' (first | with_reducible rfl | (simp only [base_updArbReq, apply_ite State.base, ite_self]; done) | split | (with_reducible refine base_foldl ?_ ?_) | (intro _ _))

theorem base_countCorr (a bank : Nat) (corr : Bool) (s : State) : ((countCorr a bank corr s)).base = s.base := by
  simp only [countCorr, base_cells, apply_ite State.base, ite_self]

theorem base_setSeen (a bank : Nat) (reqs : List Nat) (s : State) : ((setSeen a bank reqs s)).base = s.base := by
  simp only [setSeen, base_updArb]

theorem base_arbCycle (a bank : Nat) (reqs : List Nat) (unitDone corr : Bool) (s : State) : ((arbCycle a bank reqs unitDone corr s)).base = s.base := by
  simp only [arbCycle, base_holderCycle, base_dropWithdrawn, base_chooseWinner, base_countWaits, base_countCorr, base_setSeen, base_pci]

theorem base_cutHolder (a : Nat) (s : State) : ((cutHolder a s)).base = s.base := by
  unfold cutHolder; split <;> simp only [base_raiseM, base_updArbReq]

theorem base_grantsClear (a i : Nat) (s : State) : ((grantsClear a i s)).base = s.base := by
  simp only [grantsClear, base_updArbReq, apply_ite State.base, ite_self]

theorem base_tagsRestart (s : State) : ((tagsRestart s)).base = s.base := by
  simp only [tagsRestart, base_pci, apply_ite State.base, ite_self]

theorem base_setSeg (n j v : Nat) (s : State) : ((setSeg n j v s)).base = s.base := by
  simp only [setSeg, base_raise, base_updTrk, apply_ite State.base, ite_self]

theorem base_takeEpoch (e : Nat) (s : State) : ((takeEpoch e s)).base = s.base := by
  simp only [takeEpoch, base_tdm, apply_ite State.base, ite_self]

theorem base_claimNext (n : Nat) (s : State) : ((claimNext n s)).base = s.base := by
  simp only [claimNext, base_updTrk]

theorem base_lineStart (n : Nat) (s : State) : ((lineStart n s)).base = s.base := by
  simp only [lineStart, base_cfgReject, base_updTrk, base_tdm, apply_ite State.base, ite_self]

theorem base_powerCheck (n : Nat) (high : Bool) (s : State) : ((powerCheck n high s)).base = s.base := by
  simp only [powerCheck, base_raise, base_emit, base_claimNext, base_updTrk, base_tdm, apply_ite State.base, ite_self]

theorem base_lineStop (n : Nat) (s : State) : ((lineStop n s)).base = s.base := by
  simp only [lineStop, base_cfgReject, base_updTrk, apply_ite State.base, ite_self]

theorem base_dropCtl (n : Nat) (s : State) : ((dropCtl n s)).base = s.base := by
  simp only [dropCtl, base_xfers]

theorem base_stopNow (n : Nat) (s : State) : ((stopNow n s)).base = s.base := by
  simp only [stopNow, base_raise, base_emit, base_endSleepCmd, base_dropAttaches, base_dropCtl, base_updTrk]

theorem base_lockLost (n : Nat) (s : State) : ((lockLost n s)).base = s.base := by
  unfold lockLost
  repeat' (first | with_reducible rfl | (simp only [base_raise, base_updTrk, apply_ite State.base, ite_self]; done) | (split <;> try (rename_i h; replace h := base_snd h; simp only [base_raise, base_updTrk] at h)) | (simp only [base_raise, base_updTrk, *]; done) | (simp only [base_raise, base_updTrk]))

theorem base_lockFound (n : Nat) (inverted : Bool) (s : State) : ((lockFound n inverted s)).base = s.base := by
  simp only [lockFound, base_raise, base_updTrk, apply_ite State.base, ite_self]

theorem base_lineFaultOp (n : Nat) (s : State) : ((lineFaultOp n s)).base = s.base := by
  simp only [lineFaultOp, base_raise, base_quarantine, base_setSeg, base_updTrk, apply_ite State.base, ite_self]

theorem base_lfaultOver (n : Nat) (s : State) : ((lfaultOver n s)).base = s.base := by
  simp only [lfaultOver, base_emit, base_updTrk, apply_ite State.base, ite_self]

theorem base_rateChange (n : Nat) (s : State) : ((rateChange n s)).base = s.base := by
  simp only [rateChange, base_cfgReject, base_updTrk, base_tdm, apply_ite State.base, ite_self]

theorem base_rateResume (n : Nat) (s : State) : ((rateResume n s)).base = s.base := by
  unfold rateResume
  repeat' (first | with_reducible rfl | (simp only [base_emit, base_updTrk, apply_ite State.base, ite_self]; done) | split)

theorem base_rateDone (n : Nat) (s : State) : ((rateDone n s)).base = s.base := by
  simp only [rateDone, base_raise, base_updTrk]

theorem base_rateFail (n : Nat) (s : State) : ((rateFail n s)).base = s.base := by
  unfold rateFail
  repeat' (first | with_reducible rfl | (simp only [base_raise, base_pruneFar, base_quarantine, base_updTrk, apply_ite State.base, ite_self]; done) | split)

theorem base_learnTail (n hop : Nat) (s : State) : ((learnTail n hop s)).base = s.base := by
  simp only [learnTail, base_replaceTails, base_updTrk, apply_ite State.base, ite_self]

theorem base_parkedSof (n hop epoch : Nat) (s : State) : ((parkedSof n hop epoch s)).base = s.base := by
  simp only [parkedSof, base_takeEpoch, base_learnTail, base_updTrk, apply_ite State.base, ite_self]

theorem base_clrStat (n : Nat) (s : State) : ((clrStat n s)).base = s.base := by
  simp only [clrStat, base_updTrk, apply_ite State.base, ite_self]

theorem base_allFault (s : State) : ((allFault s)).base = s.base := by
  unfold allFault
  repeat' (first | with_reducible rfl | (simp only [base_lineFaultOp, apply_ite State.base, ite_self]; done) | split | (with_reducible refine base_foldl ?_ ?_) | (intro _ _))

theorem base_portRequest (n h port : Nat) (use : CtlUse) (code : Nat) (s : State) : ((portRequest n h port use code s)).base = s.base := by
  simp only [portRequest, base_ctlAnswer, base_hubRequest, apply_ite State.base, ite_self]

theorem base_portOff (n h port : Nat) (s : State) : ((portOff n h port s)).base = s.base := by
  simp only [portOff, base_portRequest]

theorem base_rosEvent (name : EventName) (n : Nat) (pos : Nat × Nat) (s : State) : ((rosEvent name n pos s)).base = s.base := by
  simp only [rosEvent, base_raise]

theorem base_freeNode (n addr : Nat) (s : State) : ((freeNode n addr s)).base = s.base := by
  unfold freeNode
  repeat' (first | with_reducible rfl | (simp only [base_freeCtx, base_closePort, base_ctxs, apply_ite State.base, ite_self]; done) | split | (with_reducible refine base_foldl ?_ ?_) | (intro _ _))

theorem base_forgetHub (n p : Nat) (s : State) : ((forgetHub n p s)).base = s.base := by
  simp only [forgetHub, base_updTrk]

theorem base_detachNode (n p q : Nat) (s : State) : ((detachNode n p q s)).base = s.base := by
  unfold detachNode
  repeat' (first
    | with_reducible rfl
    | (simp only [base_detachEntry, base_endSleepCmd, base_dropAttaches, base_rosEvent, base_forgetHub, base_ros, apply_ite State.base, ite_self]; done)
    | (split <;> try (rename_i h; replace h := base_snd h; simp only [base_detachEntry, base_endSleepCmd, base_dropAttaches, base_rosEvent, base_forgetHub, base_ros] at h))
    | (with_reducible refine base_foldl ?_ ?_)
    | with_reducible exact True.intro
    | (intro _ _)
    | (intro _)
    | (simp only [base_detachEntry, base_endSleepCmd, base_dropAttaches, base_rosEvent, base_forgetHub, base_ros, *]; done)
    | (simp only [base_detachEntry, base_endSleepCmd, base_dropAttaches, base_rosEvent, base_forgetHub, base_ros])
    | (simp only [State.base]; done))

theorem base_queueAttach (n h port : Nat) (s : State) : ((queueAttach n h port s)).base = s.base := by
  simp only [queueAttach, base_updTrk]

theorem base_attachReq (n step : Nat) (s : State) : ((attachReq n step s)).base = s.base := by
  unfold attachReq
  repeat' (first | with_reducible rfl | (simp only [base_startCtl, base_hubRequest, base_portRequest, base_updTrk, apply_ite State.base, ite_self]; done) | split)

theorem base_attachStart (n : Nat) (s : State) : ((attachStart n s)).base = s.base := by
  unfold attachStart
  repeat' (first | with_reducible rfl | (simp only [base_rosDoneAt, base_portOff, base_rosEvent, base_detachNode, base_attachReq, base_updTrk, apply_ite State.base, ite_self]; done) | (split <;> try (rename_i h; replace h := base_snd h; simp only [base_rosDoneAt, base_portOff, base_rosEvent, base_detachNode, base_attachReq, base_updTrk] at h)) | (simp only [base_rosDoneAt, base_portOff, base_rosEvent, base_detachNode, base_attachReq, base_updTrk, *]; done) | (simp only [base_rosDoneAt, base_portOff, base_rosEvent, base_detachNode, base_attachReq, base_updTrk]))

theorem base_attachEnd (n st : Nat) (s : State) : ((attachEnd n st s)).base = s.base := by
  unfold attachEnd; split <;> simp only [base_rosDoneAt, base_updTrk]

theorem base_attachOff (n : Nat) (name : EventName) (again : Option AgainFor) (s : State) : ((attachOff n name again s)).base = s.base := by
  unfold attachOff
  repeat' (first | with_reducible rfl | (simp only [base_portOff, base_rosEvent, base_attachEnd, base_updTrk, apply_ite State.base, ite_self]; done) | split)

theorem base_attachFail (n : Nat) (s : State) : ((attachFail n s)).base = s.base := by
  simp only [attachFail, base_updTrk]

theorem base_attachFinish (n : Nat) (s : State) : ((attachFinish n s)).base = s.base := by
  unfold attachFinish
  repeat' (first | with_reducible rfl | (simp only [base_grantSeeded, base_rosEvent, base_attachEnd, base_setEntry, base_ros, apply_ite State.base, ite_self]; done) | split)

theorem base_attachAddressed (n i : Nat) (a : Attach) (s : State) : ((attachAddressed n i a s)).base = s.base := by
  unfold attachAddressed; split <;> simp only [base_updCtxs, base_setEntry]

theorem base_attachNext (n k : Nat) (s : State) : ((attachNext n k s)).base = s.base := by
  unfold attachNext
  repeat' (first | with_reducible rfl | (simp only [base_attachReq, base_attachFail, base_attachFinish, apply_ite State.base, ite_self]; done) | split)

theorem base_hubReady (i : Nat) (s : State) : ((hubReady i s).2).base = s.base := by
  unfold hubReady
  repeat' (first | with_reducible rfl | (simp only [base_allocCtx, base_placeHub, apply_ite State.base, ite_self]; done) | (split <;> try (rename_i h; replace h := base_snd h; simp only [base_allocCtx, base_placeHub] at h)) | (simp only [base_allocCtx, base_placeHub, *]; done) | (simp only [base_allocCtx, base_placeHub]))

theorem base_attachAddress (n i : Nat) (isNew : Bool) (s : State) : ((attachAddress n i isNew s)).base = s.base := by
  unfold attachAddress
  repeat' (first | with_reducible rfl | (simp only [base_undoNew, base_attachReq, base_attachOff, base_hubReady, base_updTrk, base_setEntry, apply_ite State.base, ite_self]; done) | (split <;> try (rename_i h; replace h := base_snd h; simp only [base_undoNew, base_attachReq, base_attachOff, base_hubReady, base_updTrk, base_setEntry] at h)) | (simp only [base_undoNew, base_attachReq, base_attachOff, base_hubReady, base_updTrk, base_setEntry, *]; done) | (simp only [base_undoNew, base_attachReq, base_attachOff, base_hubReady, base_updTrk, base_setEntry]))

theorem base_attachHold (n i : Nat) (a : Attach) (s : State) : ((attachHold n i a s)).base = s.base := by
  unfold attachHold
  repeat' (first | with_reducible rfl | (simp only [base_freeIndex, base_attachOff, base_ros, apply_ite State.base, ite_self]; done) | (split <;> try (rename_i h; replace h := base_snd h; simp only [base_freeIndex, base_attachOff, base_ros] at h)) | (simp only [base_freeIndex, base_attachOff, base_ros, *]; done) | (simp only [base_freeIndex, base_attachOff, base_ros]))

set_option maxRecDepth 4000 in
theorem base_attachDecide (n : Nat) (s : State) : ((attachDecide n s)).base = s.base := by
  unfold attachDecide
  repeat' (first | with_reducible rfl | (simp only [base_freeIndex, base_attachOff, base_attachFail, base_attachAddress, base_attachHold, base_updTrk, base_setEntry, base_ros, apply_ite State.base, ite_self]; done) | (split <;> try (rename_i h; replace h := base_snd h; simp only [base_freeIndex, base_attachOff, base_attachFail, base_attachAddress, base_attachHold, base_updTrk, base_setEntry, base_ros] at h)) | (simp only [base_freeIndex, base_attachOff, base_attachFail, base_attachAddress, base_attachHold, base_updTrk, base_setEntry, base_ros, *]; done) | (simp only [base_freeIndex, base_attachOff, base_attachFail, base_attachAddress, base_attachHold, base_updTrk, base_setEntry, base_ros]))

theorem base_attachStep (n : Nat) (s : State) : ((attachStep n s)).base = s.base := by
  unfold attachStep
  repeat' (first | with_reducible rfl | (simp only [base_attachReq, base_attachFail, base_attachAddressed, base_attachNext, base_attachDecide, apply_ite State.base, ite_self]; done) | split)

theorem base_attachUndo (a : Attach) (s : State) : ((attachUndo a s)).base = s.base := by
  unfold attachUndo
  repeat' (first | with_reducible rfl | (simp only [base_detachEntry, base_undoNew, apply_ite State.base, ite_self]; done) | split)

theorem base_attachBoundary (n : Nat) (s : State) : ((attachBoundary n s)).base = s.base := by
  unfold attachBoundary
  repeat' (first
    | with_reducible rfl
    | (simp only [base_queueAttach, base_attachReq, apply_ite State.base, ite_self]; done)
    | (split <;> try (rename_i h; replace h := base_snd h; simp only [base_queueAttach, base_attachReq] at h))
    | (with_reducible refine base_foldl ?_ ?_)
    | with_reducible exact True.intro
    | (intro _ _)
    | (intro _)
    | (simp only [base_queueAttach, base_attachReq, *]; done)
    | (simp only [base_queueAttach, base_attachReq])
    | (simp only [State.base]; done))

theorem base_hubUnplaced (n i : Nat) (s : State) : ((hubUnplaced n i s)).base = s.base := by
  unfold hubUnplaced; split <;> simp only [base_portOff, base_rosEvent, base_detachNode, base_updTrk]

theorem base_replaceAll (n : Nat) (s : State) : ((replaceAll n s)).base = s.base := by
  unfold replaceAll
  repeat' (first
    | with_reducible rfl
    | (simp only [base_raise, base_hubUnplaced, base_updCtx, apply_ite State.base, ite_self]; done)
    | (split <;> try (rename_i h; replace h := base_snd h; simp only [base_raise, base_hubUnplaced, base_updCtx] at h))
    | (with_reducible refine base_foldl ?_ ?_)
    | with_reducible exact True.intro
    | (intro _ _)
    | (intro _)
    | (simp only [base_raise, base_hubUnplaced, base_updCtx, *]; done)
    | (simp only [base_raise, base_hubUnplaced, base_updCtx])
    | (simp only [State.base]; done))

theorem base_headAttach (n : Nat) (s : State) : ((headAttach n s)).base = s.base := by
  simp only [headAttach, base_queueAttach, base_updTrk, apply_ite State.base, ite_self]

theorem base_rosBegin (ok : Bool) (op n hub port : Nat) (f : State → State) (s : State) (hf : ∀ s, (f s).base = s.base) : ((rosBegin ok op n hub port f s)).base = s.base := by
  simp only [rosBegin, base_cfgReject, hf, base_ros, apply_ite State.base, ite_self]

theorem base_rosSettle (op slot : Nat) (s : State) : ((rosSettle op slot s)).base = s.base := by
  unfold rosSettle
  split
  · exact base_rosBegin _ _ _ _ _ _ _ (fun _ => rfl)
  · refine base_rosBegin _ _ _ _ _ _ _ (fun s => ?_)
    simp only []
    repeat' (first
      | with_reducible rfl
      | (simp only [base_queueAttach, base_freeNode, base_setEntry, base_ros]; done)
      | split)

theorem base_rosRejectOp (slot : Nat) (s : State) : ((rosRejectOp slot s)).base = s.base := by
  unfold rosRejectOp
  repeat' (first
    | with_reducible rfl
    | (simp only [base_rosDone, base_rosBegin, base_ros, apply_ite State.base, ite_self]; done)
    | (split <;> try (rename_i h; replace h := base_snd h; simp only [base_rosDone, base_rosBegin, base_ros] at h))
    | (with_reducible refine base_foldl ?_ ?_)
    | (with_reducible refine (base_rosBegin _ _ _ _ _ _ _ ?_).trans ?_)
    | with_reducible exact True.intro
    | (intro _ _)
    | (intro _)
    | (simp only [base_rosDone, base_rosBegin, base_ros, *]; done)
    | (simp only [base_rosDone, base_rosBegin, base_ros])
    | (simp only [State.base]; done))

theorem base_rosDeleteOp (i : Nat) (s : State) : ((rosDeleteOp i s)).base = s.base := by
  unfold rosDeleteOp
  repeat' (first
    | with_reducible rfl
    | (simp only [base_rosDone, base_freeNode, base_rosBegin, base_ros, apply_ite State.base, ite_self]; done)
    | (split <;> try (rename_i h; replace h := base_snd h; simp only [base_rosDone, base_freeNode, base_rosBegin, base_ros] at h))
    | (with_reducible refine base_foldl ?_ ?_)
    | (with_reducible refine (base_rosBegin _ _ _ _ _ _ _ ?_).trans ?_)
    | with_reducible exact True.intro
    | (intro _ _)
    | (intro _)
    | (simp only [base_rosDone, base_freeNode, base_rosBegin, base_ros, *]; done)
    | (simp only [base_rosDone, base_freeNode, base_rosBegin, base_ros])
    | (simp only [State.base]; done))

theorem base_setScope (n h port : Nat) (v : Sleep) (s : State) : ((setScope n h port v s)).base = s.base := by
  simp only [setScope, base_updTrk]

theorem base_rosSuspendOp (n h port : Nat) (s : State) : ((rosSuspendOp n h port s)).base = s.base := by
  unfold rosSuspendOp
  repeat' (first
    | with_reducible rfl
    | (simp only [base_hubRequest, base_rosBegin, base_setScope, apply_ite State.base, ite_self]; done)
    | (split <;> try (rename_i h; replace h := base_snd h; simp only [base_hubRequest, base_rosBegin, base_setScope] at h))
    | (with_reducible refine base_foldl ?_ ?_)
    | (with_reducible refine (base_rosBegin _ _ _ _ _ _ _ ?_).trans ?_)
    | with_reducible exact True.intro
    | (intro _ _)
    | (intro _)
    | (simp only [base_hubRequest, base_rosBegin, base_setScope, *]; done)
    | (simp only [base_hubRequest, base_rosBegin, base_setScope])
    | (simp only [State.base]; done))

theorem base_rosResumeOp (n h port : Nat) (s : State) : ((rosResumeOp n h port s)).base = s.base := by
  unfold rosResumeOp
  repeat' (first
    | with_reducible rfl
    | (simp only [base_hubRequest, base_rosBegin, base_setScope, apply_ite State.base, ite_self]; done)
    | (split <;> try (rename_i h; replace h := base_snd h; simp only [base_hubRequest, base_rosBegin, base_setScope] at h))
    | (with_reducible refine base_foldl ?_ ?_)
    | (with_reducible refine (base_rosBegin _ _ _ _ _ _ _ ?_).trans ?_)
    | with_reducible exact True.intro
    | (intro _ _)
    | (intro _)
    | (simp only [base_hubRequest, base_rosBegin, base_setScope, *]; done)
    | (simp only [base_hubRequest, base_rosBegin, base_setScope])
    | (simp only [State.base]; done))

theorem base_rosResetOp (n h port : Nat) (s : State) : ((rosResetOp n h port s)).base = s.base := by
  unfold rosResetOp
  repeat' (first
    | with_reducible rfl
    | (simp only [base_hubRequest, base_rosBegin, apply_ite State.base, ite_self]; done)
    | (split <;> try (rename_i h; replace h := base_snd h; simp only [base_hubRequest, base_rosBegin] at h))
    | (with_reducible refine base_foldl ?_ ?_)
    | (with_reducible refine (base_rosBegin _ _ _ _ _ _ _ ?_).trans ?_)
    | with_reducible exact True.intro
    | (intro _ _)
    | (intro _)
    | (simp only [base_hubRequest, base_rosBegin, *]; done)
    | (simp only [base_hubRequest, base_rosBegin])
    | (simp only [State.base]; done))

theorem base_askStatus (n h : Nat) (use : CtlUse) (s : State) : ((askStatus n h use s)).base = s.base := by
  unfold askStatus; split <;> simp only [base_ctlAnswer, base_startCtl]

theorem base_rosRequestDone (s : State) : ((rosRequestDone s)).base = s.base := by
  unfold rosRequestDone
  repeat' (first | with_reducible rfl | (simp only [base_rosDone, base_setScope, base_askStatus, base_ros, apply_ite State.base, ite_self]; done) | split)

theorem base_attachGiveUp (n : Nat) (s : State) : ((attachGiveUp n s)).base = s.base := by
  unfold attachGiveUp
  repeat' (first | with_reducible rfl | (simp only [base_portOff, base_rosEvent, base_attachOff, base_attachUndo, base_askStatus, base_updTrk, base_ros, apply_ite State.base, ite_self]; done) | split)

theorem base_rosProgress (s : State) : ((rosProgress s)).base = s.base := by
  simp only [rosProgress, base_rosRequestDone]

theorem base_rosDoneScope (op n h port st : Nat) (s : State) : ((rosDoneScope op n h port st s)).base = s.base := by
  unfold rosDoneScope
  repeat' (first | with_reducible rfl | (simp only [base_rosDone, base_ros, apply_ite State.base, ite_self]; done) | split)

theorem base_sleepEvent (name : EventName) (n h port : Nat) (s : State) : ((sleepEvent name n h port s)).base = s.base := by
  simp only [sleepEvent, base_raise]

theorem base_sleepEntered (n h port : Nat) (s : State) : ((sleepEntered n h port s)).base = s.base := by
  simp only [sleepEntered, base_endWhere, base_setScope, base_rosDoneScope, base_sleepEvent]

theorem base_sleepCancelled (n h port : Nat) (s : State) : ((sleepCancelled n h port s)).base = s.base := by
  simp only [sleepCancelled, base_setScope, base_rosDoneScope, base_sleepEvent]

theorem base_resumeDone (n h port : Nat) (s : State) : ((resumeDone n h port s)).base = s.base := by
  simp only [resumeDone, base_setScope, base_rosDoneScope, base_sleepEvent]

theorem base_lineSend (n : Nat) (sig : LineSig) (s : State) : ((lineSend n sig s)).base = s.base := by
  simp only [lineSend, base_emit, base_updTrk, apply_ite State.base, ite_self]

theorem base_trunkSleep (n : Nat) (s : State) : ((trunkSleep n s)).base = s.base := by
  unfold trunkSleep
  repeat' (first | with_reducible rfl | (simp only [base_sleepEntered, base_resumeDone, base_lineSend, apply_ite State.base, ite_self]; done) | split)

theorem base_hubSleep (n : Nat) (s : State) : ((hubSleep n s)).base = s.base := by
  unfold hubSleep
  repeat' (first | with_reducible rfl | (simp only [base_resumeDone, apply_ite State.base, ite_self]; done) | split | (with_reducible refine base_foldl ?_ ?_) | (intro _ _))

theorem base_wakeReceived (n sets : Nat) (s : State) : ((wakeReceived n sets s)).base = s.base := by
  unfold wakeReceived
  repeat' (first | with_reducible rfl | (simp only [base_setScope, base_sleepEvent, base_sleepCancelled, apply_ite State.base, ite_self]; done) | split)

theorem base_portGone (n h port : Nat) (s : State) : ((portGone n h port s)).base = s.base := by
  unfold portGone
  repeat' (first | with_reducible rfl | (simp only [base_dropAttaches, base_portOff, base_detachNode, apply_ite State.base, ite_self]; done) | (split <;> try (rename_i h; replace h := base_snd h; simp only [base_dropAttaches, base_portOff, base_detachNode] at h)) | (simp only [base_dropAttaches, base_portOff, base_detachNode, *]; done) | (simp only [base_dropAttaches, base_portOff, base_detachNode]))

theorem base_attachRecord (n h port : Nat) (s : State) : ((attachRecord n h port s)).base = s.base := by
  simp only [attachRecord, base_queueAttach, apply_ite State.base, ite_self]

theorem base_portEvent (n h : Nat) (rec : List Byte) (s : State) : ((portEvent n h rec s)).base = s.base := by
  unfold portEvent
  repeat' (first | with_reducible rfl | (simp only [base_rosEvent, base_setScope, base_askStatus, base_sleepEvent, base_sleepEntered, base_sleepCancelled, base_portGone, base_attachRecord, apply_ite State.base, ite_self]; done) | (split <;> try (rename_i h; replace h := base_snd h; simp only [base_rosEvent, base_setScope, base_askStatus, base_sleepEvent, base_sleepEntered, base_sleepCancelled, base_portGone, base_attachRecord] at h)) | (simp only [base_rosEvent, base_setScope, base_askStatus, base_sleepEvent, base_sleepEntered, base_sleepCancelled, base_portGone, base_attachRecord, *]; done) | (simp only [base_rosEvent, base_setScope, base_askStatus, base_sleepEvent, base_sleepEntered, base_sleepCancelled, base_portGone, base_attachRecord]))

theorem base_portEvents (n h : Nat) (x0 : Nat) (x1 : List Byte) (x2 : State) : ((portEvents n h x0 x1 x2)).base = x2.base := by
  induction x0 generalizing x1 x2 with
  | zero => rfl
  | succ k ih =>
    unfold portEvents
    split
    · rfl
    · exact (ih _ _).trans (base_portEvent _ _ _ _)

theorem base_hubStatus (n h : Nat) (b : List Byte) (s : State) : ((hubStatus n h b s)).base = s.base := by
  unfold hubStatus
  repeat' (first | with_reducible rfl | (simp only [base_portGone, base_attachRecord, apply_ite State.base, ite_self]; done) | split | (with_reducible refine base_foldl ?_ ?_) | (intro _ _))

theorem base_decSeg (n j : Nat) (s : State) : ((decSeg n j s)).base = s.base := by
  simp only [decSeg, base_setSeg, apply_ite State.base, ite_self]

theorem base_chargeSeg (n j : Nat) (s : State) : ((chargeSeg n j s)).base = s.base := by
  simp only [chargeSeg, base_setSeg, base_updTrk, apply_ite State.base, ite_self]

theorem base_settleOne (n g : Nat) (e : Exchange) (s : State) : ((settleOne n g e s)).base = s.base := by
  unfold settleOne
  repeat' (first | with_reducible rfl | (simp only [base_decSeg, base_chargeSeg, apply_ite State.base, ite_self]; done) | split | (with_reducible refine base_foldl ?_ ?_) | (intro _ _))

theorem base_settle (n : Nat) (s : State) : ((settle n s)).base = s.base := by
  unfold settle
  repeat' (first
    | with_reducible rfl
    | (simp only [base_settleOne, base_updTrk, apply_ite State.base, ite_self]; done)
    | (split <;> try (rename_i h; replace h := base_snd h; simp only [base_settleOne, base_updTrk] at h))
    | (with_reducible refine base_foldl ?_ ?_)
    | with_reducible exact True.intro
    | (intro _ _)
    | (intro _)
    | (simp only [base_settleOne, base_updTrk, *]; done)
    | (simp only [base_settleOne, base_updTrk])
    | (simp only [State.base]; done))

theorem base_splitAt (n j : Nat) (s : State) : ((splitAt n j s)).base = s.base := by
  simp only [splitAt, base_emit, base_updTrk, apply_ite State.base, ite_self]

theorem base_trySplit (n : Nat) (s : State) : ((trySplit n s)).base = s.base := by
  unfold trySplit
  repeat' (first | with_reducible rfl | (simp only [base_splitAt, apply_ite State.base, ite_self]; done) | split)

theorem base_startWalk (n : Nat) (s : State) : ((startWalk n s)).base = s.base := by
  unfold startWalk
  repeat' (first | with_reducible rfl | (simp only [base_raise, base_updTrk, apply_ite State.base, ite_self]; done) | split)

theorem base_zeroSegs (n a b : Nat) (s : State) : ((zeroSegs n a b s)).base = s.base := by
  unfold zeroSegs
  repeat' (first | with_reducible rfl | (simp only [base_setSeg, apply_ite State.base, ite_self]; done) | split | (with_reducible refine base_foldl ?_ ?_) | (intro _ _))

theorem base_walkClear (n : Nat) (w : Walk) (s : State) : ((walkClear n w s)).base = s.base := by
  simp only [walkClear, base_raise, base_zeroSegs, base_updTrk]

theorem base_walkFailed (n m : Nat) (w : Walk) (s : State) : ((walkFailed n m w s)).base = s.base := by
  simp only [walkFailed, base_setSeg, base_zeroSegs, base_updTrk]

theorem base_walkStep (n h : Nat) (good : Bool) (s : State) : ((walkStep n h good s)).base = s.base := by
  unfold walkStep
  repeat' (first | with_reducible rfl | (simp only [base_walkClear, base_walkFailed, base_updTrk, apply_ite State.base, ite_self]; done) | split)

theorem base_walkBoundary (n : Nat) (s : State) : ((walkBoundary n s)).base = s.base := by
  unfold walkBoundary
  repeat' (first | with_reducible rfl | (simp only [base_pruneFar, base_quarantine, base_startWalk, base_updTrk, apply_ite State.base, ite_self]; done) | split)

theorem base_probeBoundary (n : Nat) (s : State) : ((probeBoundary n s)).base = s.base := by
  unfold probeBoundary
  repeat' (first
    | with_reducible rfl
    | (simp only [base_emit, base_hubRequest, base_askStatus, base_updTrk, apply_ite State.base, ite_self]; done)
    | (split <;> try (rename_i h; replace h := base_snd h; simp only [base_emit, base_hubRequest, base_askStatus, base_updTrk] at h))
    | (with_reducible refine base_foldl ?_ ?_)
    | with_reducible exact True.intro
    | (intro _ _)
    | (intro _)
    | (simp only [base_emit, base_hubRequest, base_askStatus, base_updTrk, *]; done)
    | (simp only [base_emit, base_hubRequest, base_askStatus, base_updTrk])
    | (simp only [State.base]; done))

theorem base_probe (n k : Nat) (seen : ProbeSeen) (s : State) : ((probe n k seen s)).base = s.base := by
  simp only [probe, base_updTrk, apply_ite State.base, ite_self]

theorem base_readmit (n k : Nat) (s : State) : ((readmit n k s)).base = s.base := by
  simp only [readmit, base_raise, base_emit, base_hubRequest, base_setSeg, base_updTrk, base_tdm, apply_ite State.base, ite_self]

theorem base_holdCounts (n : Nat) (s : State) : ((holdCounts n s)).base = s.base := by
  unfold holdCounts
  repeat' (first | with_reducible rfl | (simp only [base_updXfer, base_xfers, apply_ite State.base, ite_self]; done) | split | (with_reducible refine base_foldl ?_ ?_) | (intro _ _))

theorem base_urgentExpire (i : Nat) (s : State) : ((urgentExpire i s)).base = s.base := by
  unfold urgentExpire
  repeat' (first | with_reducible rfl | (simp only [base_endXfer, apply_ite State.base, ite_self]; done) | split)

theorem base_openPort (k p : Nat) (s : State) : ((openPort k p s)).base = s.base := by
  unfold openPort
  repeat' (first | with_reducible rfl | (simp only [base_updCtx, base_setXfer, base_updRxp, base_xfers, base_seq, apply_ite State.base, ite_self]; done) | (split <;> try (rename_i h; replace h := base_snd h; simp only [base_updCtx, base_setXfer, base_updRxp, base_xfers, base_seq] at h)) | (simp only [base_updCtx, base_setXfer, base_updRxp, base_xfers, base_seq, *]; done) | (simp only [base_updCtx, base_setXfer, base_updRxp, base_xfers, base_seq]))

theorem base_setPortItems (k p : Nat) (items : List Item) (s : State) : ((setPortItems k p items s)).base = s.base := by
  simp only [setPortItems, base_linkCells, base_updRxp, base_cells]

theorem base_takeWord (k p : Nat) (s : State) : ((takeWord k p s)).base = s.base := by
  unfold takeWord
  repeat' (first | with_reducible rfl | (simp only [base_emit, base_releaseCells, base_setPortItems, base_updRxp, base_cells, apply_ite State.base, ite_self]; done) | (split <;> try (rename_i h; replace h := base_snd h; simp only [base_emit, base_releaseCells, base_setPortItems, base_updRxp, base_cells] at h)) | (simp only [base_emit, base_releaseCells, base_setPortItems, base_updRxp, base_cells, *]; done) | (simp only [base_emit, base_releaseCells, base_setPortItems, base_updRxp, base_cells]))

theorem base_servePops  (x0 : Nat) (x1 : Nat) (x2 : Nat) (x3 : State) : ((servePops x0 x1 x2 x3)).base = x3.base := by
  induction x0 generalizing x3 with
  | zero => rfl
  | succ n ih =>
    unfold servePops
    split
    · rw [ih, base_takeWord]; rfl
    · rfl

theorem base_commitItem (k p : Nat) (it : Item) (s : State) : ((commitItem k p it s)).base = s.base := by
  simp only [commitItem, base_signalVector, base_fillCells, base_setPortItems, base_servePops, base_updRxp, apply_ite State.base, ite_self]

theorem base_popPort (k p : Nat) (s : State) : ((popPort k p s)).base = s.base := by
  simp only [popPort, base_emit, base_takeWord, base_updRxp, apply_ite State.base, ite_self]

theorem base_setThreshold (fn off k p v : Nat) (s : State) : ((setThreshold fn off k p v s)).base = s.base := by
  simp only [setThreshold, base_cfgReject, base_updRxp, apply_ite State.base, ite_self]

theorem base_markTokens (n i : Nat) (flushed keepRs : Bool) (s : State) : ((markTokens n i flushed keepRs s)).base = s.base := by
  simp only [markTokens, base_updTrk]

theorem base_flushOp (k p : Nat) (receiving : Bool) (s : State) : ((flushOp k p receiving s)).base = s.base := by
  unfold flushOp
  repeat' (first | with_reducible rfl | (simp only [base_flushPort, base_markTokens, apply_ite State.base, ite_self]; done) | (split <;> try (rename_i h; replace h := base_snd h; simp only [base_flushPort, base_markTokens] at h)) | (simp only [base_flushPort, base_markTokens, *]; done) | (simp only [base_flushPort, base_markTokens]))

theorem base_queueReset (q : QueueId) (ecc : Bool) (s : State) : ((queueReset q ecc s)).base = s.base := by
  unfold queueReset
  repeat' (first | with_reducible rfl | (simp only [base_raiseBoth, base_endXfer, base_flushPort, base_markTokens, base_updCtx, base_cells, apply_ite State.base, ite_self]; done) | (split <;> try (rename_i h; replace h := base_snd h; simp only [base_raiseBoth, base_endXfer, base_flushPort, base_markTokens, base_updCtx, base_cells] at h)) | (simp only [base_raiseBoth, base_endXfer, base_flushPort, base_markTokens, base_updCtx, base_cells, *]; done) | (simp only [base_raiseBoth, base_endXfer, base_flushPort, base_markTokens, base_updCtx, base_cells]))

theorem base_launch (n : Nat) (t : Txn) (o : Nat) (planned : Bool) (s : State) : ((launch n t o planned s)).base = s.base := by
  unfold launch
  repeat' (first | with_reducible rfl | (simp only [base_emit, base_updTrk, apply_ite State.base, ite_self]; done) | split | (with_reducible refine base_foldl ?_ ?_) | (intro _ _))

theorem base_relayOut (n : Nat) (t : Txn) (s : State) : ((relayOut n t s)).base = s.base := by
  simp only [relayOut, base_sendMsg, base_updTrk]

theorem base_suspendSent (x : Xfer) (s : State) : ((suspendSent x s)).base = s.base := by
  unfold suspendSent
  repeat' (first | with_reducible rfl | (simp only [base_updTrk, base_ros, apply_ite State.base, ite_self]; done) | split)

theorem base_issueXfer (i : Nat) (t : Txn) (s : State) : ((issueXfer i t s)).base = s.base := by
  unfold issueXfer
  repeat' (first | with_reducible rfl | (simp only [base_giveTag, base_suspendSent, base_updTrk, base_updCtx, base_setXfer, base_seq, base_stage, apply_ite State.base, ite_self]; done) | split)

theorem base_updStat (n k : Nat) (f : CoxStat → CoxStat) (s : State) : ((updStat n k f s)).base = s.base := by
  simp only [updStat, base_updCrew]

theorem base_issueOcc (c : Nat) (t : Txn) (s : State) : ((issueOcc c t s)).base = s.base := by
  simp only [issueOcc, base_updStat, base_updCtx, apply_ite State.base, ite_self]

theorem base_issue (n : Nat) (t : Txn) (o : Option Nat) (s : State) : ((issue n t o s)).base = s.base := by
  unfold issue
  repeat' (first | with_reducible rfl | (simp only [base_launch, base_relayOut, base_issueXfer, base_issueOcc, apply_ite State.base, ite_self]; done) | split)

theorem base_crewTurn (n k lim : Nat) (credit : Option Nat) (urgentOnly : Bool) (s : State) : ((crewTurn n k lim credit urgentOnly s).2).base = s.base := by
  unfold crewTurn
  repeat' (first | with_reducible rfl | (simp only [base_issue, base_updTrk, apply_ite State.base, ite_self]; done) | (split <;> try (rename_i h; replace h := base_snd h; simp only [base_issue, base_updTrk] at h)) | (simp only [base_issue, base_updTrk, *]; done) | (simp only [base_issue, base_updTrk]))

theorem base_noteExchange (n : Nat) (t : Txn) (good : Bool) (s : State) : ((noteExchange n t good s)).base = s.base := by
  simp only [noteExchange, base_updTrk, apply_ite State.base, ite_self]

theorem base_freeSlot (n : Nat) (t : Txn) (s : State) : ((freeSlot n t s)).base = s.base := by
  simp only [freeSlot, base_bcastSettle, base_updTrk, apply_ite State.base, ite_self]

theorem base_countErr (n : Nat) (e : LineErr) (s : State) : ((countErr n e s)).base = s.base := by
  simp only [countErr, base_updTrk]

theorem base_resync (n : Nat) (t : Txn) (s : State) : ((resync n t s)).base = s.base := by
  simp only [resync, base_raise, base_updTrk]

theorem base_probeAnswer (n h : Nat) (b : List Byte) (s : State) : ((probeAnswer n h b s)).base = s.base := by
  simp only [probeAnswer, base_updTrk]

theorem base_ctlGoesOn (use : CtlUse) (st : Nat) (b : List Byte) (s : State) : ((ctlGoesOn use st b s)).base = s.base := by
  unfold ctlGoesOn
  repeat' (first | with_reducible rfl | (simp only [base_rosProgress, base_hubStatus, base_probeAnswer, apply_ite State.base, ite_self]; done) | split)

theorem base_lineDone (i st : Nat) (s : State) : ((lineDone i st s)).base = s.base := by
  unfold lineDone
  repeat' (first | with_reducible rfl | (simp only [base_finishLine, base_ctlGoesOn, apply_ite State.base, ite_self]; done) | split)

theorem base_afterTxn (i : Nat) (s : State) : ((afterTxn i s)).base = s.base := by
  unfold afterTxn
  repeat' (first | with_reducible rfl | (simp only [base_closePortDone, base_lineDone, base_setXfer, apply_ite State.base, ite_self]; done) | split)

theorem base_progress (i : Nat) (s : State) : ((progress i s)).base = s.base := by
  simp only [progress, base_updXfer]

theorem base_reopenPort (n a ep : Nat) (s : State) : ((reopenPort n a ep s)).base = s.base := by
  unfold reopenPort
  repeat' (first | with_reducible rfl | (simp only [base_updRxp, apply_ite State.base, ite_self]; done) | split)

theorem base_applyStd (x : Xfer) (s : State) : ((applyStd x s)).base = s.base := by
  unfold applyStd
  repeat' (first | with_reducible rfl | (simp only [base_hubRequest, base_updCtxs, base_reopenPort, base_setEntry, apply_ite State.base, ite_self]; done) | split)

theorem base_controlDone (i : Nat) (s : State) : ((controlDone i s)).base = s.base := by
  unfold controlDone
  repeat' (first | with_reducible rfl | (simp only [base_lineDone, base_applyStd, base_setEntry, apply_ite State.base, ite_self]; done) | split)

theorem base_commitIn (i : Nat) (b : List Byte) (te : Bool) (s : State) : ((commitIn i b te s)).base = s.base := by
  unfold commitIn
  repeat' (first | with_reducible rfl | (simp only [base_takeCells, base_commitTo, base_commitItem, base_setXfer, base_cells, apply_ite State.base, ite_self]; done) | (split <;> try (rename_i h; replace h := base_snd h; simp only [base_takeCells, base_commitTo, base_commitItem, base_setXfer, base_cells] at h)) | (simp only [base_takeCells, base_commitTo, base_commitItem, base_setXfer, base_cells, *]; done) | (simp only [base_takeCells, base_commitTo, base_commitItem, base_setXfer, base_cells]))

theorem base_wasteCells (t : Txn) (b : List Byte) (s : State) : ((wasteCells t b s)).base = s.base := by
  unfold wasteCells
  repeat' (first | with_reducible rfl | (simp only [base_takeCells, base_releaseCells, base_cells, apply_ite State.base, ite_self]; done) | split)

theorem base_ackItems (i : Nat) (p : Nat → Bool) (s : State) : ((ackItems i p s)).base = s.base := by
  unfold ackItems
  repeat' (first | with_reducible rfl | (simp only [base_releaseItems, base_updCtx, base_setXfer, base_cells, apply_ite State.base, ite_self]; done) | split)

theorem base_burstAcked (n i : Nat) (t : Txn) (sq map : Nat) (s : State) : ((burstAcked n i t sq map s)).base = s.base := by
  unfold burstAcked
  repeat' (first | with_reducible rfl | (simp only [base_resync, base_lineDone, base_progress, base_ackItems, base_updCtx, base_setXfer, apply_ite State.base, ite_self]; done) | (split <;> try (rename_i h; replace h := base_snd h; simp only [base_resync, base_lineDone, base_progress, base_ackItems, base_updCtx, base_setXfer] at h)) | (simp only [base_resync, base_lineDone, base_progress, base_ackItems, base_updCtx, base_setXfer, *]; done) | (simp only [base_resync, base_lineDone, base_progress, base_ackItems, base_updCtx, base_setXfer]))

theorem base_controlAcked (i : Nat) (t : Txn) (s : State) : ((controlAcked i t s)).base = s.base := by
  unfold controlAcked
  repeat' (first | with_reducible rfl | (simp only [base_stageOp, base_releaseItems, base_progress, base_controlDone, base_updXfer, base_cells, base_stage, apply_ite State.base, ite_self]; done) | split)

theorem base_controlData (n i : Nat) (t : Txn) (tg : Bool) (b : List Byte) (s : State) : ((controlData n i t tg b s)).base = s.base := by
  unfold controlData
  repeat' (first | with_reducible rfl | (simp only [base_stageOp, base_resync, base_lineDone, base_progress, base_controlDone, base_commitIn, base_wasteCells, base_updXfer, base_stage, apply_ite State.base, ite_self]; done) | split)

theorem base_oneAcked (i : Nat) (s : State) : ((oneAcked i s)).base = s.base := by
  unfold oneAcked
  repeat' (first | with_reducible rfl | (simp only [base_releaseItems, base_lineDone, base_updCtx, base_updXfer, base_cells, apply_ite State.base, ite_self]; done) | split)

theorem base_nakXfer (i : Nat) (s : State) : ((nakXfer i s)).base = s.base := by
  unfold nakXfer
  repeat' (first | with_reducible rfl | (simp only [base_updCtx, base_setXfer, apply_ite State.base, ite_self]; done) | split)

theorem base_stallXfer (i : Nat) (s : State) : ((stallXfer i s)).base = s.base := by
  unfold stallXfer
  repeat' (first | with_reducible rfl | (simp only [base_lineDone, base_updCtx, base_updRxp, apply_ite State.base, ite_self]; done) | split)

theorem base_failedXfer (n i : Nat) (t : Txn) (s : State) : ((failedXfer n i t s)).base = s.base := by
  unfold failedXfer
  repeat' (first | with_reducible rfl | (simp only [base_afterTxn, base_updTrk, base_setXfer, apply_ite State.base, ite_self]; done) | split)

theorem base_occEvent (c : Nat) (name : EventName) (s : State) : ((occEvent c name s)).base = s.base := by
  simp only [occEvent, base_raise, base_updCtx, apply_ite State.base, ite_self]

theorem base_missOcc (c : Nat) (s : State) : ((missOcc c s)).base = s.base := by
  simp only [missOcc, base_updStat, base_occEvent, base_updCtx]

theorem base_endOcc (c st : Nat) (s : State) : ((endOcc c st s)).base = s.base := by
  simp only [endOcc, base_updCtx]

theorem base_failOcc (c : Nat) (s : State) : ((failOcc c s)).base = s.base := by
  simp only [failOcc, base_updStat, base_occEvent, base_endOcc, base_updCtx, apply_ite State.base, ite_self]

theorem base_writeSample (c : Nat) (b : List Byte) (s : State) : ((writeSample c b s)).base = s.base := by
  unfold writeSample
  repeat' (first | with_reducible rfl | (simp only [base_updCtx, base_updCh, base_tim, apply_ite State.base, ite_self]; done) | (split <;> try (rename_i h; replace h := base_snd h; simp only [base_updCtx, base_updCh, base_tim] at h)) | (simp only [base_updCtx, base_updCh, base_tim, *]; done) | (simp only [base_updCtx, base_updCh, base_tim]))

theorem base_occData (n c : Nat) (t : Txn) (tg : Bool) (b : List Byte) (s : State) : ((occData n c t tg b s)).base = s.base := by
  simp only [occData, base_portEvents, base_resync, base_endOcc, base_writeSample, base_updCtx, apply_ite State.base, ite_self]

theorem base_occAcked (c : Nat) (s : State) : ((occAcked c s)).base = s.base := by
  simp only [occAcked, base_endOcc, base_updCtx]

theorem base_failedOcc (n c : Nat) (t : Txn) (s : State) : ((failedOcc n c t s)).base = s.base := by
  simp only [failedOcc, base_updTrk, base_updCtx, apply_ite State.base, ite_self]

theorem base_ledgerStep (s : State) : ((ledgerStep s)).base = s.base := by
  unfold ledgerStep
  repeat' (first | with_reducible rfl | (simp only [base_tdm, apply_ite State.base, ite_self]; done) | split | (with_reducible refine base_foldl ?_ ?_) | (intro _ _))

theorem base_updResend (n : Nat) (t : Txn) (f : Resend → Resend) (s : State) : ((updResend n t f s)).base = s.base := by
  simp only [updResend, base_ledgerStep, base_tdm]

theorem base_resendAnswer (n : Nat) (t : Txn) (ty sq map : Nat) (s : State) : ((resendAnswer n t ty sq map s)).base = s.base := by
  unfold resendAnswer
  repeat' (first | with_reducible rfl | (simp only [base_updResend, base_updCtx, apply_ite State.base, ite_self]; done) | split)

theorem base_resendFailed (n : Nat) (t : Txn) (s : State) : ((resendFailed n t s)).base = s.base := by
  simp only [resendFailed, base_updResend]

theorem base_farState (n : Nat) (t : Txn) (ty sq : Nat) (s : State) : ((farState n t ty sq s)).base = s.base := by
  unfold farState; split <;> simp only [base_updCtx]

theorem base_farRequest (n : Nat) (t : Txn) (ty : Nat) (s : State) : ((farRequest n t ty s)).base = s.base := by
  simp only [farRequest, base_updTrk, apply_ite State.base, ite_self]

theorem base_relayBack (n : Nat) (t : Txn) (id ty sq aux : Nat) (te : Bool) (b : List Byte) (final : Bool) (s : State) : ((relayBack n t id ty sq aux te b final s)).base = s.base := by
  simp only [relayBack, base_sendMsg, base_farState, base_farRequest]

theorem base_attemptFailed (n : Nat) (t : Txn) (s : State) : ((attemptFailed n t s)).base = s.base := by
  unfold attemptFailed
  repeat' (first | with_reducible rfl | (simp only [base_walkStep, base_failedXfer, base_failedOcc, base_resendFailed, base_relayBack, base_updTrk, apply_ite State.base, ite_self]; done) | split)

theorem base_lineError (n : Nat) (t : Txn) (e : LineErr) (s : State) : ((lineError n t e s)).base = s.base := by
  simp only [lineError, base_noteExchange, base_freeSlot, base_countErr, base_attemptFailed]

theorem base_xferAnswer (n i : Nat) (t : Txn) (ty sq aux : Nat) (b : List Byte) (s : State) : ((xferAnswer n i t ty sq aux b s)).base = s.base := by
  unfold xferAnswer
  repeat' (first | with_reducible rfl | (simp only [base_afterTxn, base_burstAcked, base_controlAcked, base_controlData, base_oneAcked, base_nakXfer, base_stallXfer, apply_ite State.base, ite_self]; done) | split)

theorem base_occAnswer (n c : Nat) (t : Txn) (ty sq : Nat) (b : List Byte) (s : State) : ((occAnswer n c t ty sq b s)).base = s.base := by
  simp only [occAnswer, base_endOcc, base_occData, base_occAcked, base_updResend, base_updCtx, apply_ite State.base, ite_self]

theorem base_rateStep (n : Nat) (s : State) : ((rateStep n s)).base = s.base := by
  unfold rateStep
  repeat' (first | with_reducible rfl | (simp only [base_rateDone, base_updTrk, apply_ite State.base, ite_self]; done) | split)

theorem base_sealed (n : Nat) (t : Txn) (s : State) : ((sealed n t s)).base = s.base := by
  unfold sealed; split <;> simp only [base_updTrk]

theorem base_goodAnswer (n : Nat) (t : Txn) (ty sq aux : Nat) (te : Bool) (b : List Byte) (rtt : Nat) (s : State) : ((goodAnswer n t ty sq aux te b rtt s)).base = s.base := by
  unfold goodAnswer
  repeat' (first | with_reducible rfl | (simp only [base_hopSample, base_walkStep, base_resendAnswer, base_relayBack, base_xferAnswer, base_occAnswer, base_rateStep, base_sealed, base_updTrk, apply_ite State.base, ite_self]; done) | split)

theorem base_takeBulk (i : Nat) (t : Txn) (te : Bool) (b : List Byte) (s : State) : ((takeBulk i t te b s).2).base = s.base := by
  unfold takeBulk
  repeat' (first | with_reducible rfl | (simp only [base_lineDone, base_progress, base_commitIn, base_wasteCells, base_updCtx, apply_ite State.base, ite_self]; done) | (split <;> try (rename_i h; replace h := base_snd h; simp only [base_lineDone, base_progress, base_commitIn, base_wasteCells, base_updCtx] at h)) | (simp only [base_lineDone, base_progress, base_commitIn, base_wasteCells, base_updCtx, *]; done) | (simp only [base_lineDone, base_progress, base_commitIn, base_wasteCells, base_updCtx]))

theorem base_bulkPacket (n i : Nat) (t : Txn) (sq : Nat) (te : Bool) (b : List Byte) (s : State) : ((bulkPacket n i t sq te b s).2).base = s.base := by
  unfold bulkPacket
  repeat' (first | with_reducible rfl | (simp only [base_resync, base_lineDone, base_wasteCells, base_takeBulk, base_updCtx, base_updRxp, apply_ite State.base, ite_self]; done) | (split <;> try (rename_i h; replace h := base_snd h; simp only [base_resync, base_lineDone, base_wasteCells, base_takeBulk, base_updCtx, base_updRxp] at h)) | (simp only [base_resync, base_lineDone, base_wasteCells, base_takeBulk, base_updCtx, base_updRxp, *]; done) | (simp only [base_resync, base_lineDone, base_wasteCells, base_takeBulk, base_updCtx, base_updRxp]))

theorem base_keepTxn (n : Nat) (t : Txn) (s : State) : ((keepTxn n t s)).base = s.base := by
  simp only [keepTxn, base_updTrk]

theorem base_burstEnds (n : Nat) (t : Txn) (s : State) : ((burstEnds n t s)).base = s.base := by
  unfold burstEnds
  repeat' (first | with_reducible rfl | (simp only [base_noteExchange, base_freeSlot, base_afterTxn, base_attemptFailed, apply_ite State.base, ite_self]; done) | split)

theorem base_burstArrives (n : Nat) (t : Txn) (p : RxPkt) (final : Bool) (s : State) : ((burstArrives n t p final s)).base = s.base := by
  unfold burstArrives
  repeat' (first | with_reducible rfl | (simp only [base_raise, base_countErr, base_wasteCells, base_relayBack, base_bulkPacket, base_keepTxn, base_burstEnds, apply_ite State.base, ite_self]; done) | (split <;> try (rename_i h; replace h := base_snd h; simp only [base_raise, base_countErr, base_wasteCells, base_relayBack, base_bulkPacket, base_keepTxn, base_burstEnds] at h)) | (simp only [base_raise, base_countErr, base_wasteCells, base_relayBack, base_bulkPacket, base_keepTxn, base_burstEnds, *]; done) | (simp only [base_raise, base_countErr, base_wasteCells, base_relayBack, base_bulkPacket, base_keepTxn, base_burstEnds]))

theorem base_receive (n slot : Nat) (p : RxPkt) (final : Bool) (rtt : Nat) (s : State) : ((receive n slot p final rtt s)).base = s.base := by
  unfold receive
  repeat' (first | with_reducible rfl | (simp only [base_raise, base_noteExchange, base_freeSlot, base_wasteCells, base_lineError, base_goodAnswer, base_burstArrives, apply_ite State.base, ite_self]; done) | split)

theorem base_bcastDone (i : Nat) (s : State) : ((bcastDone i s)).base = s.base := by
  unfold bcastDone
  repeat' (first | with_reducible rfl | (simp only [base_lineDone, base_afterTxn, base_setXfer, apply_ite State.base, ite_self]; done) | split)

theorem base_budgetEnds (n slot : Nat) (s : State) : ((budgetEnds n slot s)).base = s.base := by
  unfold budgetEnds
  repeat' (first | with_reducible rfl | (simp only [base_freeSlot, base_updResend, base_relayBack, base_lineError, base_bcastDone, apply_ite State.base, ite_self]; done) | split)

theorem base_exhaust (n : Nat) (s : State) : ((exhaust n s)).base = s.base := by
  unfold exhaust
  repeat' (first | with_reducible rfl | (simp only [base_lineDone, base_failOcc, base_updResend, base_updTrk, base_updCtx, apply_ite State.base, ite_self]; done) | (split <;> try (rename_i h; replace h := base_snd h; simp only [base_lineDone, base_failOcc, base_updResend, base_updTrk, base_updCtx] at h)) | (simp only [base_lineDone, base_failOcc, base_updResend, base_updTrk, base_updCtx, *]; done) | (simp only [base_lineDone, base_failOcc, base_updResend, base_updTrk, base_updCtx]))

theorem base_sendRecord (r : CatchRec) (s : State) : ((sendRecord r s)).base = s.base := by
  unfold sendRecord
  repeat' (first
    | with_reducible rfl
    | (simp only [base_emit, base_sendBytes, apply_ite State.base, ite_self]; done)
    | (split <;> try (rename_i h; replace h := base_snd h; simp only [base_emit, base_sendBytes] at h))
    | (with_reducible refine base_foldl ?_ ?_)
    | with_reducible exact True.intro
    | (intro _ _)
    | (intro _)
    | (simp only [base_emit, base_sendBytes, *]; done)
    | (simp only [base_emit, base_sendBytes])
    | (simp only [State.base]; done))

theorem base_catchClose (s : State) : ((catchClose s)).base = s.base := by
  simp only [catchClose, base_sendRecord, base_tdm, apply_ite State.base, ite_self]

theorem base_applyNode (b : List Byte) (s : State) : ((applyNode b s)).base = s.base := by
  unfold applyNode
  repeat' (first | with_reducible rfl | (simp only [base_freeBytes, base_freeIndex, base_setEntry, base_ros, apply_ite State.base, ite_self]; done) | (split <;> try (rename_i h; replace h := base_snd h; simp only [base_freeBytes, base_freeIndex, base_setEntry, base_ros] at h)) | (simp only [base_freeBytes, base_freeIndex, base_setEntry, base_ros, *]; done) | (simp only [base_freeBytes, base_freeIndex, base_setEntry, base_ros]))

theorem base_applyEp (e : CatchEntry) (s : State) : ((applyEp e s)).base = s.base := by
  unfold applyEp
  repeat' (first | with_reducible rfl | (simp only [base_updTrk, base_updCtx, base_setEntry, apply_ite State.base, ite_self]; done) | (split <;> try (rename_i h; replace h := base_snd h; simp only [base_updTrk, base_updCtx, base_setEntry] at h)) | (simp only [base_updTrk, base_updCtx, base_setEntry, *]; done) | (simp only [base_updTrk, base_updCtx, base_setEntry]))

theorem base_applyLine (e : CatchEntry) (s : State) : ((applyLine e s)).base = s.base := by
  unfold applyLine
  repeat' (first | with_reducible rfl | (simp only [base_quarantine, base_sealed, base_updTrk, apply_ite State.base, ite_self]; done) | split)

theorem base_applyAlm (e : CatchEntry) (s : State) : ((applyAlm e s)).base = s.base := by
  unfold applyAlm
  repeat' (first | with_reducible rfl | (simp only [base_updCtx, apply_ite State.base, ite_self]; done) | split)

theorem base_applyBase (p : Nat → Bool) (s : State) : ((applyBase p s)).base = s.base := by
  unfold applyBase
  repeat' (first | with_reducible rfl | (simp only [base_applyEp, base_applyLine, base_applyAlm, base_tdm, apply_ite State.base, ite_self]; done) | split | (with_reducible refine base_foldl ?_ ?_) | (intro _ _))

theorem base_resendOne (e : CatchEntry) (s : State) : ((resendOne e s)).base = s.base := by
  unfold resendOne
  repeat' (first | with_reducible rfl | (simp only [base_updCtx, base_tdm, apply_ite State.base, ite_self]; done) | split)

theorem base_resendSome (p : CatchEntry → Bool) (s : State) : ((resendSome p s)).base = s.base := by
  unfold resendSome
  repeat' (first | with_reducible rfl | (simp only [base_resendOne, base_tdm, apply_ite State.base, ite_self]; done) | split | (with_reducible refine base_foldl ?_ ?_) | (intro _ _))

theorem base_resendAll (s : State) : ((resendAll s)).base = s.base := by
  simp only [resendAll, base_ledgerStep, base_resendSome, base_tdm]

theorem base_fenceDrive (s : State) : ((fenceDrive s)).base = s.base := by
  simp only [fenceDrive, base_tdm]

theorem base_parkPort (n : Nat) (s : State) : ((parkPort n s)).base = s.base := by
  simp only [parkPort, base_emit, base_updTrk, apply_ite State.base, ite_self]

theorem base_becomeStandby (s : State) : ((becomeStandby s)).base = s.base := by
  unfold becomeStandby
  repeat' (first
    | with_reducible rfl
    | (simp only [base_fenceDrive, base_parkPort, base_tdm, apply_ite State.base, ite_self]; done)
    | (split <;> try (rename_i h; replace h := base_snd h; simp only [base_fenceDrive, base_parkPort, base_tdm] at h))
    | (with_reducible refine base_foldl ?_ ?_)
    | with_reducible exact True.intro
    | (intro _ _)
    | (intro _)
    | (simp only [base_fenceDrive, base_parkPort, base_tdm, *]; done)
    | (simp only [base_fenceDrive, base_parkPort, base_tdm])
    | (simp only [State.base]; done))

theorem base_endRosCmd (s : State) : ((endRosCmd s)).base = s.base := by
  unfold endRosCmd
  repeat' (first | with_reducible rfl | (simp only [base_rosDone, base_ros, apply_ite State.base, ite_self]; done) | split)

theorem base_endOwn (s : State) : ((endOwn s)).base = s.base := by
  unfold endOwn
  repeat' (first
    | with_reducible rfl
    | (simp only [base_completeXfer, base_endXfer, base_rosProgress, base_endRosCmd, base_xfers, apply_ite State.base, ite_self]; done)
    | (split <;> try (rename_i h; replace h := base_snd h; simp only [base_completeXfer, base_endXfer, base_rosProgress, base_endRosCmd, base_xfers] at h))
    | (with_reducible refine base_foldl ?_ ?_)
    | with_reducible exact True.intro
    | (intro _ _)
    | (intro _)
    | (simp only [base_completeXfer, base_endXfer, base_rosProgress, base_endRosCmd, base_xfers, *]; done)
    | (simp only [base_completeXfer, base_endXfer, base_rosProgress, base_endRosCmd, base_xfers])
    | (simp only [State.base]; done))

theorem base_becomeFenced (s : State) : ((becomeFenced s)).base = s.base := by
  simp only [becomeFenced, base_raiseM, base_endOwn, base_tdm, apply_ite State.base, ite_self]

theorem base_withdraw (s : State) : ((withdraw s)).base = s.base := by
  simp only [withdraw, base_raiseM, base_becomeStandby]

theorem base_gateTrunks (s : State) : ((gateTrunks s)).base = s.base := by
  unfold gateTrunks
  exact base_foldl (fun _ _ => base_updTrk ..) rfl

theorem base_fenceObeyed (s : State) : ((fenceObeyed s)).base = s.base := by
  simp only [fenceObeyed, base_becomeFenced, base_gateTrunks, base_tdm, apply_ite State.base, ite_self]

theorem base_fenceChange (low : Bool) (s : State) : ((fenceChange low s)).base = s.base := by
  unfold fenceChange
  repeat' (first
    | with_reducible rfl
    | (simp only [base_becomeFenced, base_withdraw, base_gateTrunks, base_updTrk, base_tdm, apply_ite State.base, ite_self]; done)
    | (split <;> try (rename_i h; replace h := base_snd h; simp only [base_becomeFenced, base_withdraw, base_gateTrunks, base_updTrk, base_tdm] at h))
    | (with_reducible refine base_foldl ?_ ?_)
    | with_reducible exact True.intro
    | (intro _ _)
    | (intro _)
    | (simp only [base_becomeFenced, base_withdraw, base_gateTrunks, base_updTrk, base_tdm, *]; done)
    | (simp only [base_becomeFenced, base_withdraw, base_gateTrunks, base_updTrk, base_tdm])
    | (simp only [State.base]; done))

theorem base_enterJoining (s : State) : ((enterJoining s)).base = s.base := by
  simp only [enterJoining, base_tdm]

theorem base_pairedNow (s : State) : ((pairedNow s)).base = s.base := by
  simp only [pairedNow, base_raiseM, base_becomeStandby, base_tdm, apply_ite State.base, ite_self]

theorem base_pairUpdate (s : State) : ((pairUpdate s)).base = s.base := by
  simp only [pairUpdate, base_raiseM, base_timeSources, base_fenceDrive, base_enterJoining, base_pairedNow, base_tdm, apply_ite State.base, ite_self]

theorem base_pairBlock (b : PairBlock) (s : State) : ((pairBlock b s)).base = s.base := by
  unfold pairBlock
  repeat' (first
    | with_reducible rfl
    | (simp only [base_raiseM, base_takeEpoch, base_learnTail, base_pairUpdate, base_fenceObeyed, base_updTrk, base_tdm, apply_ite State.base, ite_self]; done)
    | (split <;> try (rename_i h; replace h := base_snd h; simp only [base_raiseM, base_takeEpoch, base_learnTail, base_pairUpdate, base_fenceObeyed, base_updTrk, base_tdm] at h))
    | (with_reducible refine base_foldl ?_ ?_)
    | with_reducible exact True.intro
    | (intro _ _)
    | (intro _)
    | (simp only [base_raiseM, base_takeEpoch, base_learnTail, base_pairUpdate, base_fenceObeyed, base_updTrk, base_tdm, *]; done)
    | (simp only [base_raiseM, base_takeEpoch, base_learnTail, base_pairUpdate, base_fenceObeyed, base_updTrk, base_tdm])
    | (simp only [State.base]; done))

theorem base_laneChange (i : Nat) (on : Bool) (s : State) : ((laneChange i on s)).base = s.base := by
  simp only [laneChange, base_raiseM, base_pairUpdate, base_tdm, apply_ite State.base, ite_self]

theorem base_linkEnable (on : Bool) (s : State) : ((linkEnable on s)).base = s.base := by
  simp only [linkEnable, base_pairUpdate, base_tdm, apply_ite State.base, ite_self]

theorem base_heartbeat (s : State) : ((heartbeat s)).base = s.base := by
  simp only [heartbeat, base_emit, base_sendMsg, base_tim, base_tdm, apply_ite State.base, ite_self]

theorem base_heartbeatSeen (s : State) : ((heartbeatSeen s)).base = s.base := by
  simp only [heartbeatSeen, base_tdm]

theorem base_hbWire (off : Nat) (s : State) : ((hbWire off s)).base = s.base := by
  simp only [hbWire, base_heartbeatSeen, base_tdm, apply_ite State.base, ite_self]

theorem base_hbBlock (f : Nat) (active : Bool) (off : Nat) (s : State) : ((hbBlock f active off s)).base = s.base := by
  simp only [hbBlock, base_heartbeatSeen, base_tdm, apply_ite State.base, ite_self]

theorem base_hbMiss (s : State) : ((hbMiss s)).base = s.base := by
  simp only [hbMiss, base_raiseM, base_tdm, apply_ite State.base, ite_self]

theorem base_splitLost (n : Nat) (s : State) : ((splitLost n s)).base = s.base := by
  unfold splitLost
  repeat' (first
    | with_reducible rfl
    | (simp only [base_raise, base_endXfer, base_pruneFar, base_quarantine, base_updTrk, base_xfers, apply_ite State.base, ite_self]; done)
    | (split <;> try (rename_i h; replace h := base_snd h; simp only [base_raise, base_endXfer, base_pruneFar, base_quarantine, base_updTrk, base_xfers] at h))
    | (with_reducible refine base_foldl ?_ ?_)
    | with_reducible exact True.intro
    | (intro _ _)
    | (intro _)
    | (simp only [base_raise, base_endXfer, base_pruneFar, base_quarantine, base_updTrk, base_xfers, *]; done)
    | (simp only [base_raise, base_endXfer, base_pruneFar, base_quarantine, base_updTrk, base_xfers])
    | (simp only [State.base]; done))

theorem base_standbyAlone (s : State) : ((standbyAlone s)).base = s.base := by
  unfold standbyAlone
  repeat' (first | with_reducible rfl | (simp only [base_raiseM, base_emit, base_withdraw, base_updTrk, base_tdm, apply_ite State.base, ite_self]; done) | split | (with_reducible refine base_foldl ?_ ?_) | (intro _ _))

theorem base_partnerLost (s : State) : ((partnerLost s)).base = s.base := by
  unfold partnerLost
  repeat' (first
    | with_reducible rfl
    | (simp only [base_raiseM, base_pairUpdate, base_splitLost, base_standbyAlone, base_tdm, apply_ite State.base, ite_self]; done)
    | (split <;> try (rename_i h; replace h := base_snd h; simp only [base_raiseM, base_pairUpdate, base_splitLost, base_standbyAlone, base_tdm] at h))
    | (with_reducible refine base_foldl ?_ ?_)
    | with_reducible exact True.intro
    | (intro _ _)
    | (intro _)
    | (simp only [base_raiseM, base_pairUpdate, base_splitLost, base_standbyAlone, base_tdm, *]; done)
    | (simp only [base_raiseM, base_pairUpdate, base_splitLost, base_standbyAlone, base_tdm])
    | (simp only [State.base]; done))

theorem base_markListed (l : List CatchEntry) (s : State) : ((markListed l s)).base = s.base := by
  simp only [markListed, base_xfers]

theorem base_catchAck (f : Nat) (s : State) : ((catchAck f s)).base = s.base := by
  unfold catchAck
  repeat' (first | with_reducible rfl | (simp only [base_raiseM, base_pairUpdate, base_fenceObeyed, base_markListed, base_tdm, apply_ite State.base, ite_self]; done) | split)

theorem base_catchNak (f : Nat) (s : State) : ((catchNak f s)).base = s.base := by
  unfold catchNak
  repeat' (first
    | with_reducible rfl
    | (simp only [base_sendRecord, base_tdm, apply_ite State.base, ite_self]; done)
    | (split <;> try (rename_i h; replace h := base_snd h; simp only [base_sendRecord, base_tdm] at h))
    | (with_reducible refine base_foldl ?_ ?_)
    | with_reducible exact True.intro
    | (intro _ _)
    | (intro _)
    | (simp only [base_sendRecord, base_tdm, *]; done)
    | (simp only [base_sendRecord, base_tdm])
    | (simp only [State.base]; done))

theorem base_fromBlock (b : RxBlk) (f : Nat → State → State) (s : State) (hf : ∀ n s, (f n s).base = s.base) : ((fromBlock b f s)).base = s.base := by
  unfold fromBlock
  repeat' (first | with_reducible rfl | (simp only [hf, base_tdm, apply_ite State.base, ite_self]; done) | split)

theorem base_catchEntry (num : Nat) (e : CatchEntry) (s : State) : ((catchEntry num e s)).base = s.base := by
  simp only [catchEntry, base_tdm, apply_ite State.base, ite_self]

theorem base_splitSeen (e : CatchEntry) (s : State) : ((splitSeen e s)).base = s.base := by
  unfold splitSeen
  repeat' (first | with_reducible rfl | (simp only [base_claimNext, base_splitAt, base_updTrk, apply_ite State.base, ite_self]; done) | split)

theorem base_takeRecord (c : CatchClose) (s : State) : ((takeRecord c s)).base = s.base := by
  unfold takeRecord
  repeat' (first | with_reducible rfl | (simp only [base_raiseM, base_sendMsg, base_takeEpoch, base_applyNode, base_splitSeen, base_tdm, apply_ite State.base, ite_self]; done) | split | (with_reducible refine base_foldl ?_ ?_) | (intro _ _))

theorem base_catchEnd (c : CatchClose) (s : State) : ((catchEnd c s)).base = s.base := by
  simp only [catchEnd, base_sendMsg, base_takeRecord, base_tdm, apply_ite State.base, ite_self]

theorem base_lagBoundary (s : State) : ((lagBoundary s)).base = s.base := by
  simp only [lagBoundary, base_raiseM, base_tdm, apply_ite State.base, ite_self]

theorem base_meetSleep (n : Nat) (s : State) : ((meetSleep n s)).base = s.base := by
  simp only [meetSleep, base_detachNode, base_updTrk, apply_ite State.base, ite_self]

theorem base_claimPort (n : Nat) (s : State) : ((claimPort n s)).base = s.base := by
  simp only [claimPort, base_meetSleep, base_updTrk]

theorem base_claimBoundary (s : State) : ((claimBoundary s)).base = s.base := by
  unfold claimBoundary
  repeat' (first
    | with_reducible rfl
    | (simp only [base_cfgReject, base_claimPort, base_updTrk, base_tdm, apply_ite State.base, ite_self]; done)
    | (split <;> try (rename_i h; replace h := base_snd h; simp only [base_cfgReject, base_claimPort, base_updTrk, base_tdm] at h))
    | (with_reducible refine base_foldl ?_ ?_)
    | with_reducible exact True.intro
    | (intro _ _)
    | (intro _)
    | (simp only [base_cfgReject, base_claimPort, base_updTrk, base_tdm, *]; done)
    | (simp only [base_cfgReject, base_claimPort, base_updTrk, base_tdm])
    | (simp only [State.base]; done))

theorem base_confirmBoundary (n : Nat) (s : State) : ((confirmBoundary n s)).base = s.base := by
  simp only [confirmBoundary, base_updTrk, apply_ite State.base, ite_self]

theorem base_claimFail (n : Nat) (s : State) : ((claimFail n s)).base = s.base := by
  simp only [claimFail, base_raise, base_quarantine, base_updTrk, apply_ite State.base, ite_self]

theorem base_missGap (a c : Nat) (s : State) : ((missGap a c s)).base = s.base := by
  unfold missGap
  repeat' (first | with_reducible rfl | (simp only [base_updStat, base_occEvent, base_ctxs, apply_ite State.base, ite_self]; done) | split | (with_reducible refine base_foldl ?_ ?_) | (intro _ _))

theorem base_aloneSplit (n : Nat) (s : State) : ((aloneSplit n s)).base = s.base := by
  simp only [aloneSplit, base_pruneFar, base_updTrk, apply_ite State.base, ite_self]

theorem base_loseTargets (s : State) : ((loseTargets s)).base = s.base := by
  unfold loseTargets
  repeat' (first | with_reducible rfl | (simp only [base_endXfer, base_xfers, apply_ite State.base, ite_self]; done) | split | (with_reducible refine base_foldl ?_ ?_) | (intro _ _))

theorem base_changeover (s : State) : ((changeover s)).base = s.base := by
  unfold changeover
  repeat' (first
    | with_reducible rfl
    | (simp only [base_raiseM, base_cfgReject, base_applyBase, base_resendAll, base_fenceDrive, base_becomeStandby, base_withdraw, base_missGap, base_aloneSplit, base_loseTargets, base_updTrk, base_tdm, apply_ite State.base, ite_self]; done)
    | (split <;> try (rename_i h; replace h := base_snd h; simp only [base_raiseM, base_cfgReject, base_applyBase, base_resendAll, base_fenceDrive, base_becomeStandby, base_withdraw, base_missGap, base_aloneSplit, base_loseTargets, base_updTrk, base_tdm] at h))
    | (with_reducible refine base_foldl ?_ ?_)
    | with_reducible exact True.intro
    | (intro _ _)
    | (intro _)
    | (simp only [base_raiseM, base_cfgReject, base_applyBase, base_resendAll, base_fenceDrive, base_becomeStandby, base_withdraw, base_missGap, base_aloneSplit, base_loseTargets, base_updTrk, base_tdm, *]; done)
    | (simp only [base_raiseM, base_cfgReject, base_applyBase, base_resendAll, base_fenceDrive, base_becomeStandby, base_withdraw, base_missGap, base_aloneSplit, base_loseTargets, base_updTrk, base_tdm])
    | (simp only [State.base]; done))

theorem base_forceClaim (s : State) : ((forceClaim s)).base = s.base := by
  simp only [forceClaim, base_cfgReject, base_fenceDrive, base_withdraw, base_tdm, apply_ite State.base, ite_self]

theorem base_handOver (s : State) : ((handOver s)).base = s.base := by
  simp only [handOver, base_cfgReject, base_tdm, apply_ite State.base, ite_self]

theorem base_handBoundary (s : State) : ((handBoundary s)).base = s.base := by
  simp only [handBoundary, base_becomeStandby, base_endOwn, base_tdm, apply_ite State.base, ite_self]

theorem base_splitBoundary (n : Nat) (s : State) : ((splitBoundary n s)).base = s.base := by
  simp only [splitBoundary, base_raise, base_applyBase, base_resendSome, apply_ite State.base, ite_self]

theorem base_relayRequest (r : RelayReq) (s : State) : ((relayRequest r s)).base = s.base := by
  simp only [relayRequest, base_updTrk, apply_ite State.base, ite_self]

theorem base_relayResult (r : RelayRes) (s : State) : ((relayResult r s)).base = s.base := by
  unfold relayResult
  repeat' (first | with_reducible rfl | (simp only [base_afterTxn, base_attemptFailed, base_goodAnswer, base_bulkPacket, base_bcastDone, base_updTrk, apply_ite State.base, ite_self]; done) | split)

theorem base_healCheck (n : Nat) (up : Bool) (s : State) : ((healCheck n up s)).base = s.base := by
  simp only [healCheck, base_sendMsg, base_updTrk, apply_ite State.base, ite_self]

theorem base_healNotice (n : Nat) (s : State) : ((healNotice n s)).base = s.base := by
  simp only [healNotice, base_updTrk, base_tdm, apply_ite State.base, ite_self]

theorem base_healBoundary (n : Nat) (s : State) : ((healBoundary n s)).base = s.base := by
  unfold healBoundary
  repeat' (first | with_reducible rfl | (simp only [base_raise, base_emit, base_parkPort, base_updTrk, base_tdm, apply_ite State.base, ite_self]; done) | (split <;> try (rename_i h; replace h := base_snd h; simp only [base_raise, base_emit, base_parkPort, base_updTrk, base_tdm] at h)) | (simp only [base_raise, base_emit, base_parkPort, base_updTrk, base_tdm, *]; done) | (simp only [base_raise, base_emit, base_parkPort, base_updTrk, base_tdm]))

theorem base_timeAnswer (t1 t2 t3 t4 : Int) (state source : Nat) (s : State) : ((timeAnswer t1 t2 t3 t4 state source s)).base = s.base := by
  unfold timeAnswer
  simp only []
  rw [base_pairUpdate]
  refine Eq.trans (b := State.base (ite (_ = true) (raiseM _ _ _) _)) rfl ?_
  split
  · exact base_raiseM _ _ _
  · rfl

theorem base_timeBlock (m : TimeMsg) (state source : Nat) (s : State) : ((timeBlock m state source s)).base = s.base := by
  unfold timeBlock
  split
  · rfl
  · split
    · exact base_sendMsg _ _ _ _
    · exact base_timeAnswer _ _ _ _ _ _ _

theorem base_tdmClear (s : State) : ((tdmClear s)).base = s.base := by
  simp only [tdmClear, base_tdm, apply_ite State.base, ite_self]

theorem base_sendSof (edge n : Nat) (s : State) : ((sendSof edge n s)).base = s.base := by
  simp only [sendSof, base_emit, base_tim, base_tdm]

theorem base_heartbeatFrame (s : State) : ((heartbeatFrame s)).base = s.base := by
  simp only [heartbeatFrame, base_tdm]

theorem base_shareBoundary (s : State) : ((shareBoundary s)).base = s.base := by
  unfold shareBoundary
  repeat' (first | with_reducible rfl | (simp only [base_raise, base_updCrew, base_crews, apply_ite State.base, ite_self]; done) | split | (with_reducible refine base_foldl ?_ ?_) | (intro _ _))

theorem base_fieldsBoundary (s : State) : ((fieldsBoundary s)).base = s.base := by
  unfold fieldsBoundary
  simp only []
  split
  · simp only [base_calBoundary, base_shareBoundary, base_updCtxs]
    exact base_foldl (fun _ _ => rfl) rfl
  · simp only [base_replaceHubEvents, base_calBoundary, base_shareBoundary, base_updCtxs]
    exact base_foldl (fun _ _ => rfl) rfl

theorem base_rateBoundary (n : Nat) (s : State) : ((rateBoundary n s)).base = s.base := by
  unfold rateBoundary
  repeat' (first | with_reducible rfl | (simp only [base_rateDone, base_replaceAll, base_updTrk, apply_ite State.base, ite_self]; done) | (split <;> try (rename_i h; replace h := base_snd h; simp only [base_rateDone, base_replaceAll, base_updTrk] at h)) | (simp only [base_rateDone, base_replaceAll, base_updTrk, *]; done) | (simp only [base_rateDone, base_replaceAll, base_updTrk]))

theorem base_rateStart (n : Nat) (s : State) : ((rateStart n s)).base = s.base := by
  unfold rateStart
  repeat' (first | with_reducible rfl | (simp only [base_emit, base_updTrk, apply_ite State.base, ite_self]; done) | split)

theorem base_parkedBoundary (n : Nat) (s : State) : ((parkedBoundary n s)).base = s.base := by
  simp only [parkedBoundary, base_updTrk]

theorem base_occBoundary (n : Nat) (s : State) : ((occBoundary n s)).base = s.base := by
  unfold occBoundary
  repeat' (first | with_reducible rfl | (simp only [base_missOcc, base_failOcc, base_updCtx, base_ctxs, apply_ite State.base, ite_self]; done) | split | (with_reducible refine base_foldl ?_ ?_) | (intro _ _))

theorem base_partnerPlan (n : Nat) (s : State) : ((partnerPlan n s)).base = s.base := by
  unfold partnerPlan
  repeat' (first | with_reducible rfl | (simp only [base_updCtxs, base_applyAlm, base_tdm, apply_ite State.base, ite_self]; done) | split | (with_reducible refine base_foldl ?_ ?_) | (intro _ _))

theorem base_planFrame (n : Nat) (fresh : Bool) (s : State) : ((planFrame n fresh s)).base = s.base := by
  simp only [planFrame, base_updTrk]

theorem base_trunkBoundary (edge : Nat) (fresh : Bool) (n : Nat) (s : State) : ((trunkBoundary edge fresh n s)).base = s.base := by
  simp only [trunkBoundary, base_stopNow, base_attachBoundary, base_trunkSleep, base_hubSleep, base_walkBoundary, base_probeBoundary, base_holdCounts, base_confirmBoundary, base_splitBoundary, base_healBoundary, base_sendSof, base_rateBoundary, base_rateStart, base_parkedBoundary, base_occBoundary, base_partnerPlan, base_planFrame, apply_ite State.base, ite_self]

theorem base_countTagWait (s : State) : ((countTagWait s)).base = s.base := by
  simp only [countTagWait, base_pci]

theorem base_dropResends (n : Nat) (s : State) : ((dropResends n s)).base = s.base := by
  simp only [dropResends, base_ledgerStep, base_tdm, apply_ite State.base, ite_self]

theorem base_ownIssued (n : Nat) (t : Txn) (s : State) : ((ownIssued n t s)).base = s.base := by
  unfold ownIssued; split <;> simp only [base_updTrk, base_freeCtr]

theorem base_issueOwn (n lim : Nat) (s : State) (x0 : List Txn) : ((issueOwn n lim s x0).2).base = s.base := by
  induction x0 generalizing s with
  | nil => rfl
  | cons t rest ih =>
    unfold issueOwn
    split
    · simp only [base_ownIssued, base_launch]
    · refine (ih _).trans ?_
      split <;> rfl

theorem base_urgentTurns (n lim : Nat) (x0 : Nat) (x1 : State) : ((urgentTurns n lim x0 x1).2).base = x1.base := by
  induction x0 generalizing x1 with
  | zero => rfl
  | succ fuel ih =>
    unfold urgentTurns
    simp only []
    split
    · rename_i h; exact (base_updTrk _ _ _).trans ((base_snd h).trans (base_crewTurn _ _ _ _ _ _))
    · rename_i h; exact (base_snd h).trans (base_crewTurn _ _ _ _ _ _)
    · rename_i h; exact (ih _).trans ((base_updTrk _ _ _).trans ((base_snd h).trans (base_crewTurn _ _ _ _ _ _)))

theorem base_urgentIssue (n : Nat) (s : State) : ((urgentIssue n s)).base = s.base := by
  unfold urgentIssue
  repeat' (first | with_reducible rfl | (simp only [base_issueOwn, base_urgentTurns, apply_ite State.base, ite_self]; done) | (split <;> try (rename_i h; replace h := base_snd h; simp only [base_issueOwn, base_urgentTurns] at h)) | (simp only [base_issueOwn, base_urgentTurns, *]; done) | (simp only [base_issueOwn, base_urgentTurns]))

theorem base_credits (n t : Nat) (s : State) : ((credits n t s)).base = s.base := by
  unfold credits
  repeat' (first | with_reducible rfl | (simp only [base_updStat, base_updTrk, apply_ite State.base, ite_self]; done) | split | (with_reducible refine base_foldl ?_ ?_) | (intro _ _))

theorem base_addWeights (n : Nat) (s : State) : ((addWeights n s)).base = s.base := by
  unfold addWeights
  repeat' (first | with_reducible rfl | (simp only [base_updTrk, apply_ite State.base, ite_self]; done) | split | (with_reducible refine base_foldl ?_ ?_) | (intro _ _))

theorem base_shareTurns (n : Nat) (x0 : Nat) (x1 : State) : ((shareTurns n x0 x1)).base = x1.base := by
  induction x0 generalizing x1 with
  | zero => rfl
  | succ fuel ih =>
    unfold shareTurns
    simp only []
    split
    · split
      · exact ih _
      · split
        · exact (ih _).trans (base_addWeights _ _)
        · rfl
    · split
      · exact ih _
      · split
        · rename_i h; exact (base_updTrk _ _ _).trans ((base_updTrk _ _ _).trans ((base_snd h).trans (base_crewTurn _ _ _ _ _ _)))
        · rename_i h; exact (base_snd h).trans (base_crewTurn _ _ _ _ _ _)
        · rename_i h; exact (ih _).trans ((base_updTrk _ _ _).trans ((base_snd h).trans (base_crewTurn _ _ _ _ _ _)))

theorem base_shareIssue (n : Nat) (s : State) : ((shareIssue n s)).base = s.base := by
  unfold shareIssue
  repeat' (first | with_reducible rfl | (simp only [base_dropResends, base_issueOwn, base_shareTurns, apply_ite State.base, ite_self]; done) | (split <;> try (rename_i h; replace h := base_snd h; simp only [base_dropResends, base_issueOwn, base_shareTurns] at h)) | (simp only [base_dropResends, base_issueOwn, base_shareTurns, *]; done) | (simp only [base_dropResends, base_issueOwn, base_shareTurns]))

theorem base_takePlan (n c : Nat) (s : State) : ((takePlan n c s)).base = s.base := by
  simp only [takePlan, base_updTrk]

theorem base_occCome (n c : Nat) (off : Option Nat) (s : State) : ((occCome n c off s)).base = s.base := by
  unfold occCome
  repeat' (first | with_reducible rfl | (simp only [base_launch, base_issueOcc, base_missOcc, base_updCtx, apply_ite State.base, ite_self]; done) | split)

theorem base_farCome (n c : Nat) (o : Nat) (s : State) : ((farCome n c o s)).base = s.base := by
  unfold farCome
  repeat' (first | with_reducible rfl | (simp only [base_launch, base_tdm, base_out, apply_ite State.base, ite_self]; done) | (split <;> try (rename_i h; replace h := base_snd h; simp only [base_launch, base_tdm, base_out] at h)) | (simp only [base_launch, base_tdm, base_out, *]; done) | (simp only [base_launch, base_tdm, base_out]))

theorem base_occReached (c : Nat) (s : State) : ((occReached c s)).base = s.base := by
  unfold occReached
  repeat' (first | with_reducible rfl | (simp only [base_takePlan, base_occCome, base_farCome, base_tdm, apply_ite State.base, ite_self]; done) | (split <;> try (rename_i h; replace h := base_snd h; simp only [base_takePlan, base_occCome, base_farCome, base_tdm] at h)) | (simp only [base_takePlan, base_occCome, base_farCome, base_tdm, *]; done) | (simp only [base_takePlan, base_occCome, base_farCome, base_tdm]))

theorem base_unplacedLate (n : Nat) (s : State) : ((unplacedLate n s)).base = s.base := by
  unfold unplacedLate
  repeat' (first | with_reducible rfl | (simp only [base_occCome, apply_ite State.base, ite_self]; done) | split | (with_reducible refine base_foldl ?_ ?_) | (intro _ _))

theorem base_urgentStart (n : Nat) (s : State) : ((urgentStart n s)).base = s.base := by
  simp only [urgentStart, base_tryQueues, base_urgentIssue, base_updTrk, apply_ite State.base, ite_self]

theorem base_bulkStart (n : Nat) (s : State) : ((bulkStart n s)).base = s.base := by
  unfold bulkStart
  repeat' (first | with_reducible rfl | (simp only [base_tryQueues, base_issueOwn, base_credits, base_unplacedLate, base_updTrk, apply_ite State.base, ite_self]; done) | (split <;> try (rename_i h; replace h := base_snd h; simp only [base_tryQueues, base_issueOwn, base_credits, base_unplacedLate, base_updTrk] at h)) | (simp only [base_tryQueues, base_issueOwn, base_credits, base_unplacedLate, base_updTrk, *]; done) | (simp only [base_tryQueues, base_issueOwn, base_credits, base_unplacedLate, base_updTrk]))

theorem base_nextIssue (n : Nat) (s : State) : ((nextIssue n s)).base = s.base := by
  simp only [nextIssue, base_tryQueues, base_urgentIssue, base_shareIssue, apply_ite State.base, ite_self]

theorem base_trunkGuard (n : Nat) (s : State) : ((trunkGuard n s)).base = s.base := by
  unfold trunkGuard
  repeat' (first
    | with_reducible rfl
    | (simp only [base_settle, base_trySplit, base_updStat, base_updTrk, apply_ite State.base, ite_self]; done)
    | (split <;> try (rename_i h; replace h := base_snd h; simp only [base_settle, base_trySplit, base_updStat, base_updTrk] at h))
    | (with_reducible refine base_foldl ?_ ?_)
    | with_reducible exact True.intro
    | (intro _ _)
    | (intro _)
    | (simp only [base_settle, base_trySplit, base_updStat, base_updTrk, *]; done)
    | (simp only [base_settle, base_trySplit, base_updStat, base_updTrk])
    | (simp only [State.base]; done))

theorem base_frameGuard (s : State) : ((frameGuard s)).base = s.base := by
  unfold frameGuard
  repeat' (first
    | with_reducible rfl
    | (simp only [base_catchClose, base_trunkGuard, apply_ite State.base, ite_self]; done)
    | (split <;> try (rename_i h; replace h := base_snd h; simp only [base_catchClose, base_trunkGuard] at h))
    | (with_reducible refine base_foldl ?_ ?_)
    | with_reducible exact True.intro
    | (intro _ _)
    | (intro _)
    | (simp only [base_catchClose, base_trunkGuard, *]; done)
    | (simp only [base_catchClose, base_trunkGuard])
    | (simp only [State.base]; done))

theorem base_readArrived (tag : Nat) (use : ReadFor) (data : Option (List Byte)) (s : State) : ((readArrived tag use data s)).base = s.base := by
  unfold readArrived; split <;> simp only [base_descArrived, base_linkArrived, base_chDescArrived, base_sourceArrived, base_flushDone, base_walkArrived, base_payloadArrived, base_pushArrived, base_storeArrived]

theorem base_readEnds (tag : Nat) (data : HostRead → Except AerKind (List Byte)) (s : State) : ((readEnds tag data s)).base = s.base := by
  unfold readEnds
  repeat' (first | with_reducible rfl | (simp only [base_logAer, base_freeTag, base_chStopDone, base_readArrived, base_pci, apply_ite State.base, ite_self]; done) | split)

theorem base_pulseLow (s : State) : ((pulseLow s)).base = s.base := by
  simp only [pulseLow, base_emit, base_tim, apply_ite State.base, ite_self]

theorem base_domainLate (d : Nat) (s : State) : ((domainLate d s)).base = s.base := by
  simp only [domainLate, base_raiseM, base_imgFault, base_pwr, apply_ite State.base, ite_self]

theorem base_sweepDone (t : Word) (s : State) : ((sweepDone t s)).base = s.base := by
  unfold sweepDone
  repeat' (first
    | with_reducible rfl
    | (simp only [base_reqDomain, base_enterLoader, base_pwr, base_img, apply_ite State.base, ite_self]; done)
    | (split <;> try (rename_i h; replace h := base_snd h; simp only [base_reqDomain, base_enterLoader, base_pwr, base_img] at h))
    | (with_reducible refine base_foldl ?_ ?_)
    | with_reducible exact True.intro
    | (intro _ _)
    | (intro _)
    | (simp only [base_reqDomain, base_enterLoader, base_pwr, base_img, *]; done)
    | (simp only [base_reqDomain, base_enterLoader, base_pwr, base_img])
    | (simp only [State.base]; done))

theorem base_linkDetect (t : Word) (s : State) : ((linkDetect t s)).base = s.base := by
  simp only [linkDetect, base_startCheck, base_pwr, apply_ite State.base, ite_self]

theorem base_startDone (t : Word) (s : State) : ((startDone t s)).base = s.base := by
  simp only [startDone, base_raiseM, base_startCheck, base_pwr, apply_ite State.base, ite_self]

theorem base_domainReq (value : Word) (s : State) : ((domainReq value s)).base = s.base := by
  unfold domainReq
  have hb : ∀ (d : Nat) (r : Bool × State), (reqBit value d r).2.base = r.2.base := by
    intro d r
    unfold reqBit
    simp only []
    repeat' (first
      | with_reducible rfl
      | (simp only [base_offDomain, base_reqDomain, base_becomeStandby, base_pwr]; done)
      | split)
  have h : ∀ (l : List Nat) (r : Bool × State), (l.foldl (fun r d => reqBit value d r) r).2.base = r.2.base := by
    intro l
    induction l with
    | nil => intro r; rfl
    | cons d l ih => intro r; exact (ih _).trans (hb _ _)
  split
  · rfl
  · split
    · exact base_cfgReject _ _ _
    · simp only []
      split
      · exact (base_cfgReject _ _ _).trans (h _ _)
      · exact h _ _

theorem base_allCrewsGone (s : State) : ((allCrewsGone s)).base = s.base := by
  unfold allCrewsGone
  repeat' (first | with_reducible rfl | (simp only [base_beginReset, base_finishReset, base_loseSlots, base_updCrew, apply_ite State.base, ite_self]; done) | split | (with_reducible refine base_foldl ?_ ?_) | (intro _ _))

theorem base_trip (s : State) : ((trip s)).base = s.base := by
  unfold trip
  have hend : ∀ u : State, ({ u with
      chs := [], cells := {}, pwr := { u.pwr with wait := 0, req := 0 } } : State).base = u.base := fun _ => rfl
  have hset : ∀ u : State, ({ u with
      pwr := { u.pwr with tripped := true, tripCool := false } } : State).base = u.base := fun _ => rfl
  split
  · rfl
  · simp only []
    rw [base_timeSources, base_updCtxs, hend, base_dropQueued, base_discardReads]
    refine base_foldl (fun s d => base_offDomain d s) ?_
    rw [base_refuseImg, base_raiseM, hset]
    refine base_foldl (fun s n => ?_) rfl
    split <;> rfl

theorem base_qWrite (fn off : Nat) (quiet same : Bool) (write : State → State) (s : State) (hwrite : ∀ s, (write s).base = s.base) : ((qWrite fn off quiet same write s)).base = s.base := by
  simp only [qWrite, base_cfgReject, hwrite, apply_ite State.base, ite_self]

theorem base_ringReg (acc : Acc) (k r reg : Nat) (v : Word) (s : State) : ((ringReg acc k r reg v s)).base = s.base := by
  unfold ringReg
  repeat' (first
    | with_reducible rfl
    | (simp only [base_ringEnable, base_ringShutdown, base_ringRestart, base_ringPi, base_qWrite, base_updRing, apply_ite State.base, ite_self]; done)
    | (split <;> try (rename_i h; replace h := base_snd h; simp only [base_ringEnable, base_ringShutdown, base_ringRestart, base_ringPi, base_qWrite, base_updRing] at h))
    | (with_reducible refine base_foldl ?_ ?_)
    | (with_reducible refine (base_qWrite _ _ _ _ _ _ ?_).trans ?_)
    | with_reducible exact True.intro
    | (intro _ _)
    | (intro _)
    | (simp only [base_ringEnable, base_ringShutdown, base_ringRestart, base_ringPi, base_qWrite, base_updRing, *]; done)
    | (simp only [base_ringEnable, base_ringShutdown, base_ringRestart, base_ringPi, base_qWrite, base_updRing])
    | (simp only [State.base]; done))

theorem base_cqReg (acc : Acc) (k c reg : Nat) (v : Word) (s : State) : ((cqReg acc k c reg v s)).base = s.base := by
  unfold cqReg
  repeat' (first
    | with_reducible rfl
    | (simp only [base_cqEnableOp, base_cqDisableOp, base_cqHead, base_qWrite, base_updCq, apply_ite State.base, ite_self]; done)
    | (split <;> try (rename_i h; replace h := base_snd h; simp only [base_cqEnableOp, base_cqDisableOp, base_cqHead, base_qWrite, base_updCq] at h))
    | (with_reducible refine base_foldl ?_ ?_)
    | (with_reducible refine (base_qWrite _ _ _ _ _ _ ?_).trans ?_)
    | with_reducible exact True.intro
    | (intro _ _)
    | (intro _)
    | (simp only [base_cqEnableOp, base_cqDisableOp, base_cqHead, base_qWrite, base_updCq, *]; done)
    | (simp only [base_cqEnableOp, base_cqDisableOp, base_cqHead, base_qWrite, base_updCq])
    | (simp only [State.base]; done))

theorem base_chReg (acc : Acc) (k c reg : Nat) (v : Word) (s : State) : ((chReg acc k c reg v s)).base = s.base := by
  unfold chReg
  have hq : ∀ (h : Ch), (if s.isStream c = true then qWrite (accFn acc k) (chOffset acc c reg)
      ((s.ch c).state == .disabled) (h == s.ch c) (·.updCh c (fun _ => h)) s else s).base = s.base := by
    intro h; split
    · exact base_qWrite _ _ _ _ _ _ (fun _ => rfl)
    · rfl
  simp only []
  split
  · rfl
  · split
    all_goals first
      | exact hq _
      | exact base_chPi _ _ _ _ _
      | exact base_chCqHead _ _ _ _ _
      | rfl
      | skip
    repeat' split
    · exact base_chStop _ _ _ _
    · exact base_chRestart _ _ _ _
    · exact base_chEnable _ _ _ _
    · rfl

theorem base_rxpWin (k p off : Nat) (v : Word) (s : State) : ((rxpWin k p off v s)).base = s.base := by
  simp only [rxpWin, base_cfgReject, base_updRxp, apply_ite State.base, ite_self]

theorem base_rxpReg (k p reg off : Nat) (v : Word) (s : State) : ((rxpReg k p reg off v s)).base = s.base := by
  unfold rxpReg
  repeat' (first
    | with_reducible rfl
    | (simp only [base_flushPort, base_closePort, base_openPort, base_qWrite, base_rxpWin, base_updRxp, apply_ite State.base, ite_self]; done)
    | (split <;> try (rename_i h; replace h := base_snd h; simp only [base_flushPort, base_closePort, base_openPort, base_qWrite, base_rxpWin, base_updRxp] at h))
    | (with_reducible refine base_foldl ?_ ?_)
    | (with_reducible refine (base_qWrite _ _ _ _ _ _ ?_).trans ?_)
    | with_reducible exact True.intro
    | (intro _ _)
    | (intro _)
    | (simp only [base_flushPort, base_closePort, base_openPort, base_qWrite, base_rxpWin, base_updRxp, *]; done)
    | (simp only [base_flushPort, base_closePort, base_openPort, base_qWrite, base_rxpWin, base_updRxp])
    | (simp only [State.base]; done))

theorem base_evtReg (fn reg off : Nat) (v : Word) (s : State) : ((evtReg fn reg off v s)).base = s.base := by
  unfold evtReg
  repeat' (first
    | with_reducible rfl
    | (simp only [base_updEvt, base_evtEnableOp, base_evtDisableOp, base_evtHead, base_qWrite, apply_ite State.base, ite_self]; done)
    | (split <;> try (rename_i h; replace h := base_snd h; simp only [base_updEvt, base_evtEnableOp, base_evtDisableOp, base_evtHead, base_qWrite] at h))
    | (with_reducible refine base_foldl ?_ ?_)
    | (with_reducible refine (base_qWrite _ _ _ _ _ _ ?_).trans ?_)
    | with_reducible exact True.intro
    | (intro _ _)
    | (intro _)
    | (simp only [base_updEvt, base_evtEnableOp, base_evtDisableOp, base_evtHead, base_qWrite, *]; done)
    | (simp only [base_updEvt, base_evtEnableOp, base_evtDisableOp, base_evtHead, base_qWrite])
    | (simp only [State.base]; done))

theorem base_evtMod (fn i : Nat) (v : Word) (s : State) : ((evtMod fn i v s)).base = s.base := by
  simp only [evtMod, base_updCrew, apply_ite State.base, ite_self]

theorem base_msixReg (fn off : Nat) (v : Word) (s : State) : ((msixReg fn off v s)).base = s.base := by
  unfold msixReg
  repeat' (first | with_reducible rfl | (simp only [base_unmaskVector, base_updCrew, apply_ite State.base, ite_self]; done) | split)

theorem base_epmPolicy (c : Nat) (v : Word) (s : State) : ((epmPolicy c v s)).base = s.base := by
  simp only [epmPolicy, base_updCtx]

theorem base_imgReg (reg : Nat) (v : Word) (s : State) : ((imgReg reg v s)).base = s.base := by
  unfold imgReg
  repeat' (first
    | with_reducible rfl
    | (simp only [base_imgStart, base_qWrite, base_img, apply_ite State.base, ite_self]; done)
    | (split <;> try (rename_i h; replace h := base_snd h; simp only [base_imgStart, base_qWrite, base_img] at h))
    | (with_reducible refine base_foldl ?_ ?_)
    | (with_reducible refine (base_qWrite _ _ _ _ _ _ ?_).trans ?_)
    | with_reducible exact True.intro
    | (intro _ _)
    | (intro _)
    | (simp only [base_imgStart, base_qWrite, base_img, *]; done)
    | (simp only [base_imgStart, base_qWrite, base_img])
    | (simp only [State.base]; done))

theorem base_calReg (reg : Nat) (v : Word) (s : State) : ((calReg reg v s)).base = s.base := by
  unfold calReg
  repeat' (first | with_reducible rfl | (simp only [base_calWrite, base_calClear, base_cal, apply_ite State.base, ite_self]; done) | split)

theorem base_trkHold (n : Nat) (on : Bool) (s : State) : ((trkHold n on s)).base = s.base := by
  simp only [trkHold, base_updTrk]

theorem base_trkCtrl (n : Nat) (v : Word) (s : State) : ((trkCtrl n v s)).base = s.base := by
  simp only [trkCtrl, base_lineStart, base_lineStop, base_rateChange, base_clrStat, base_trkHold, apply_ite State.base, ite_self]

theorem base_trkReg (n reg : Nat) (v : Word) (s : State) : ((trkReg n reg v s)).base = s.base := by
  unfold trkReg
  repeat' (first
    | with_reducible rfl
    | (simp only [base_qWrite, base_trkCtrl, base_updTrk, apply_ite State.base, ite_self]; done)
    | (split <;> try (rename_i h; replace h := base_snd h; simp only [base_qWrite, base_trkCtrl, base_updTrk] at h))
    | (with_reducible refine base_foldl ?_ ?_)
    | (with_reducible refine (base_qWrite _ _ _ _ _ _ ?_).trans ?_)
    | with_reducible exact True.intro
    | (intro _ _)
    | (intro _)
    | (simp only [base_qWrite, base_trkCtrl, base_updTrk, *]; done)
    | (simp only [base_qWrite, base_trkCtrl, base_updTrk])
    | (simp only [State.base]; done))

theorem base_rosReg (reg : Nat) (v : Word) (s : State) : ((rosReg reg v s)).base = s.base := by
  unfold rosReg
  repeat' (first | with_reducible rfl | (simp only [base_rosSettle, base_rosRejectOp, base_rosDeleteOp, base_rosSuspendOp, base_rosResumeOp, base_rosResetOp, base_rosProgress, base_ros, apply_ite State.base, ite_self]; done) | split)

theorem base_coxPlan (n : Nat) (v : Word) (s : State) : ((coxPlan n v s)).base = s.base := by
  unfold coxPlan
  repeat' (first
    | with_reducible rfl
    | (simp only [base_qWrite, base_updTrk, apply_ite State.base, ite_self]; done)
    | (split <;> try (rename_i h; replace h := base_snd h; simp only [base_qWrite, base_updTrk] at h))
    | (with_reducible refine base_foldl ?_ ?_)
    | (with_reducible refine (base_qWrite _ _ _ _ _ _ ?_).trans ?_)
    | with_reducible exact True.intro
    | (intro _ _)
    | (intro _)
    | (simp only [base_qWrite, base_updTrk, *]; done)
    | (simp only [base_qWrite, base_updTrk])
    | (simp only [State.base]; done))

theorem base_coxReg (reg : Nat) (v : Word) (s : State) : ((coxReg reg v s)).base = s.base := by
  unfold coxReg
  repeat' (first | with_reducible rfl | (simp only [base_almBegin, base_coxPlan, base_cox, apply_ite State.base, ite_self]; done) | split)

theorem base_crwCommand (op k : Nat) (s : State) : ((crwCommand op k s)).base = s.base := by
  unfold crwCommand
  repeat' (first
    | with_reducible rfl
    | (simp only [base_crwOp, base_crwResetOp, base_setQuota, base_setShareOp, base_grantBcast, base_withdrawBcast, base_revokeOp, base_createOp, base_grantOp, apply_ite State.base, ite_self]; done)
    | (split <;> try (rename_i h; replace h := base_snd h; simp only [base_crwOp, base_crwResetOp, base_setQuota, base_setShareOp, base_grantBcast, base_withdrawBcast, base_revokeOp, base_createOp, base_grantOp] at h))
    | (with_reducible refine base_foldl ?_ ?_)
    | (with_reducible refine (base_crwOp _ _ _ ?_).trans ?_)
    | with_reducible exact True.intro
    | (intro _ _)
    | (intro _)
    | (simp only [base_crwOp, base_crwResetOp, base_setQuota, base_setShareOp, base_grantBcast, base_withdrawBcast, base_revokeOp, base_createOp, base_grantOp, *]; done)
    | (simp only [base_crwOp, base_crwResetOp, base_setQuota, base_setShareOp, base_grantBcast, base_withdrawBcast, base_revokeOp, base_createOp, base_grantOp])
    | (simp only [State.base]; done))

theorem base_crwShare (k : Nat) (v : Word) (s : State) : ((crwShare k v s)).base = s.base := by
  simp only [crwShare, base_cfgReject, base_updCrew, apply_ite State.base, ite_self]

theorem base_mbxReg (k reg : Nat) (v : Word) (s : State) : ((mbxReg k reg v s)).base = s.base := by
  unfold mbxReg
  repeat' (first | with_reducible rfl | (simp only [base_dnDoorbell, base_upAck, base_updCrew, base_stage, apply_ite State.base, ite_self]; done) | split)

theorem base_crwReg (reg : Nat) (v : Word) (s : State) : ((crwReg reg v s)).base = s.base := by
  unfold crwReg
  repeat' (first
    | with_reducible rfl
    | (simp only [base_qWrite, base_crwCommand, base_crwShare, base_mbxReg, base_cmd, apply_ite State.base, ite_self]; done)
    | (split <;> try (rename_i h; replace h := base_snd h; simp only [base_qWrite, base_crwCommand, base_crwShare, base_mbxReg, base_cmd] at h))
    | (with_reducible refine base_foldl ?_ ?_)
    | (with_reducible refine (base_qWrite _ _ _ _ _ _ ?_).trans ?_)
    | with_reducible exact True.intro
    | (intro _ _)
    | (intro _)
    | (simp only [base_qWrite, base_crwCommand, base_crwShare, base_mbxReg, base_cmd, *]; done)
    | (simp only [base_qWrite, base_crwCommand, base_crwShare, base_mbxReg, base_cmd])
    | (simp only [State.base]; done))

theorem base_rngReg (acc : Acc) (k w : Nat) (v : Word) (s : State) : ((rngReg acc k w v s)).base = s.base := by
  simp only [rngReg, base_ringReg, base_cqReg, apply_ite State.base, ite_self]

theorem base_dmaReg (reg : Nat) (v : Word) (s : State) : ((dmaReg reg v s)).base = s.base := by
  simp only [dmaReg, base_bindOp, base_chReg, apply_ite State.base, ite_self]

theorem base_epmReg (reg : Nat) (v : Word) (s : State) : ((epmReg reg v s)).base = s.base := by
  unfold epmReg
  repeat' (first | with_reducible rfl | (simp only [base_epmPolicy, base_updCrew, apply_ite State.base, ite_self]; done) | split)

theorem base_arbReqReg (a i : Nat) (v : Word) (s : State) : ((arbReqReg a i v s)).base = s.base := by
  simp only [arbReqReg, base_updArbReq, apply_ite State.base, ite_self]

theorem base_arbReg (a reg : Nat) (v : Word) (s : State) : ((arbReg a reg v s)).base = s.base := by
  simp only [arbReg, base_arbReqReg, base_updArb, apply_ite State.base, ite_self]

theorem base_timCfg (v : Word) (s : State) : ((timCfg v s)).base = s.base := by
  simp only [timCfg, base_cfgReject, base_timeSources, base_tim, apply_ite State.base, ite_self]

theorem base_timReg (reg : Nat) (v : Word) (s : State) : ((timReg reg v s)).base = s.base := by
  unfold timReg
  repeat' (first | with_reducible rfl | (simp only [base_timeSet, base_mgrSample, base_startPulse, base_timCfg, base_tim, apply_ite State.base, ite_self]; done) | split)

theorem base_tdmReg (reg : Nat) (v : Word) (s : State) : ((tdmReg reg v s)).base = s.base := by
  unfold tdmReg
  repeat' (first | with_reducible rfl | (simp only [base_cfgReject, base_linkEnable, base_forceClaim, base_handOver, base_tdmClear, base_tdm, apply_ite State.base, ite_self]; done) | split)

theorem base_epmWindow (k reg : Nat) (v : Word) (s : State) : ((epmWindow k reg v s)).base = s.base := by
  unfold epmWindow
  repeat' (first | with_reducible rfl | (simp only [base_epmPolicy, base_updCrew, apply_ite State.base, ite_self]; done) | split)

theorem base_mbxWindow (k reg : Nat) (v : Word) (s : State) : ((mbxWindow k reg v s)).base = s.base := by
  unfold mbxWindow
  repeat' (first | with_reducible rfl | (simp only [base_upDoorbell, base_dnAck, base_updCrew, base_stage, apply_ite State.base, ite_self]; done) | split)

theorem base_windowWrite (k off : Nat) (v : Word) (s : State) : ((windowWrite k off v s)).base = s.base := by
  simp only [windowWrite, base_bindOp, base_chReg, base_rxpReg, base_evtReg, base_evtMod, base_msixReg, base_rngReg, base_epmWindow, base_mbxWindow, apply_ite State.base, ite_self]

theorem base_jtagClock (trst tms tdi : Bool) (s : State) : ((jtagClock trst tms tdi s)).base = s.base := by
  simp only [jtagClock, base_jtag, apply_ite State.base, ite_self]

end Sys2Proof.Machine
end

