-- ==== Sys2Proof/Tests/Slice0.lean ====
section
/-! SUPPORT. Tests: an ill-formed term for each check of WellFormed, a witness for the hypotheses of each statement of
Certificates/Slice0/Obligations.lean, and small tests of single commands.  Expected values come from the rule each
test names. -/

namespace Sys2Proof.Tests
open Sys2Proof Sys2Proof.Machine

/-! ### Helpers: an image in force, everything on, the manager and crew 1 running; trunk 7 is pair-fed -/

def trunkImg : TrkImg := ⟨0, 64, 64, 64, 16, 16, 16⟩
def section1 : CrewSec :=
  { tc := List.replicate 8 16, epCtx := List.replicate 8 16, epmKib := List.replicate 8 16, almUs := List.replicate 8 50,
    cells := 256, queues := 16, rings := 8, ringLog2Max := 16, bulkMin := 20, bulkWeight := 4, epmBufLog2 := 12,
    permUrgent := true, permBcast := true }
def image : Image :=
  { hdr := { fmt := 1, kind := 1, bp := 1, debug := false, rollback := 3, sections := 3, length := 4096, id := 7, flashRead := 0 },
    table := [], crewMax := 2, trunkEnable := 0xFF, pairFed := 0x80, mgrCells := 256, mgrQueues := 16,
    trunks := List.replicate 8 trunkImg, chans := ⟨0, 1, 1⟩ :: List.replicate 31 ⟨1, 1, 0⟩, crews := [(1, section1)],
    cal := [], seeds := [] }
def on : State :=
  { State.reset with
    pins := { perstHigh := true }
    pwr := { stage := .started, s2 := .done, s3 := .done, s4 := .done, s5 := .done, startDone := true, on := 0xFFFFFF }
    img := { state := .applied, applied := some image, source := 3 }
    pci := { vfEnable := true, numVfs := 2 }
    crews := [(0, { bme := true }), (1, { st := .running, bme := true })] }
def pwrOf (f : Pwr → Pwr) : State := { on with pwr := f on.pwr }
def imgOf (f : Img → Img) : State := { on with img := f on.img }
def trkOf (n : Nat) (t : Trk) : State := on.setTrk n t

/-! ### Witnesses: the hypotheses of each statement, clause by clause, hold somewhere -/

theorem witness_PowerOnAndClockFailResetsClear :
    (on.pwr.stage ≠ .porDelay ∧ on.pwr.stage ≠ .clockFailed ∧ on.img.run = none)
    ∧ (({ State.reset with pwr := { stage := .porDelay } } : State).stage = []
      ∧ ({ State.reset with pwr := { stage := .porDelay } } : State).pwr.stage = .porDelay
      ∧ ({ State.reset with pwr := { stage := .clockFailed } } : State).pwr.stage = .clockFailed) := by decide

theorem witness_WarmResetsFromTheirTriggersOnly :
    (on.pins.perstHigh = true ∧ on.warmOk = true)
    ∧ (on.pwr.stage = .started ∧ on.isOn 2 = true ∧ on.responds .clkPwr = true
      ∧ (0xA501 : Word).getLsbD 0 = true ∧ (0xA501 : Word).extractLsb' 8 8 = 0xA5)
    ∧ (State.reset.stage = [] ∧ State.reset.pins.perstHigh = false ∧ State.reset.pwr.stage ≠ .started
      ∧ ({ on with pwr := { stage := .pll } } : State).warmOk = false
      ∧ (pwrOf (fun p => { p with on := 1 })).isOn 2 = false)
    ∧ (on.stage = [] ∧ (0xA500 : Word).getLsbD 0 = false ∧ (0x5A01 : Word).extractLsb' 8 8 ≠ 0xA5) := by decide

def por : State := { State.reset with pwr := { stage := .porDelay, pllLock := false, on := 0 } }
/-- The bow of a pair that has been silent, before its first start of a pair-fed trunk. -/
def firstBow : State := { on with straps := { on.straps with role := true }, tdm := { enable := true, hbClear := 3 } }
def s1 (stage : Stage) (lit : BitVec 24) : State :=
  { State.reset with pwr := { stage := stage, pllLock := false, on := lit, wait := 0x100002 } }
theorem witness_StartUpReachesTheReleasePoint :
    (por.pwr.stage = .porDelay)
    ∧ ((s1 .pll 3).stage = [] ∧ (s1 .pll 3).pwr.stage = .pll ∧ (s1 .pll 3).pwr.pllLock = false ∧ (s1 .pll 3).isOn 1 = true
      ∧ (s1 .pll 3).pins.refclkOk = true ∧ (s1 .pll 3).isOn 21 = false ∧ (s1 .pll 3).isOn 22 = false)
    ∧ ((s1 .pll 1).stage = [] ∧ (s1 .pll 1).isOn 1 = false)
    ∧ ((s1 .clockFailed 1).pwr.stage = .clockFailed ∧ (s1 .clockFailed 1).isOn 1 = false)
    ∧ ((s1 .pll 1).pwr.wait.getLsbD 1 = true ∧ (domainNeeds 1).all (s1 .pll 1).isOn = true)
    ∧ (((pwrOf (fun p => { p with wait := 0x100000 })).pwr.wait.getLsbD 20 = true
        ∧ (domainNeeds 20).all (pwrOf (fun p => { p with wait := 0x100000 })).isOn = true)
      ∧ (pwrOf (fun p => { p with wait := 0x100000 })).pwr.pllLock = true
      ∧ (pwrOf (fun p => { p with wait := 0x100000 })).img.run.map (·.op) ≠ some 4)
    ∧ (State.reset.pins.perstHigh = false ∧ State.reset.pins.vddio33Ok = true ∧ State.reset.pwr.stage = .waitRelease
      ∧ State.reset.pwr.releaseTimer = false)
    ∧ ((pwrOf (fun p => { p with stage := .waitRelease, releaseTimer := true })).pins.perstHigh = true
      ∧ (pwrOf (fun p => { p with stage := .waitRelease, releaseTimer := true })).pwr.stage = .waitRelease)
    ∧ (({ State.reset with pins := { perstWait := true, vddio33Ok := false } } : State).pins.perstWait = true
      ∧ ({ State.reset with pins := { perstWait := true, vddio33Ok := false } } : State).pwr.stage = .waitRelease
      ∧ ({ State.reset with pins := { perstWait := true, vddio33Ok := false } } : State).pwr.releaseTimer = false
      ∧ ({ State.reset with pins := { perstWait := true, vddio33Ok := false } } : State).pins.perstHigh = false
      ∧ ({ State.reset with pins := { perstWait := true, vddio33Ok := false } } : State).pins.vddio33Ok = false) := by decide

def sweeping (boot : Bool) : State :=
  { State.reset with straps := { State.reset.straps with boot := boot }
                     pwr := { stage := .started, s2 := .running, s3 := .running, on := 0x6DFFFF, wait := 0x120004 } }
theorem witness_StagesAndDomainsReport :
    ((sweeping true).stage = [] ∧ (sweeping true).pwr.s3 = .running ∧ (∀ d ∈ s3Domains, (sweeping true).pwr.wait.getLsbD d = false)
      ∧ (sweeping true).straps.boot = true)
    ∧ ((∀ d ∈ s3Domains, (sweeping false).isOn d = true) ∧ (sweeping false).straps.boot = false)
    ∧ ((pwrOf (fun p => { p with s3 := .running, on := 7 })).isOn 19 = false ∧ 19 ∈ s3Domains
      ∧ (∀ d ∈ s3Domains, (pwrOf (fun p => { p with s3 := .running, on := 7 })).pwr.wait.getLsbD d = false))
    ∧ ((sweeping true).pwr.s2 = .running ∧ (sweeping true).isOn 2 = true)
    ∧ ((pwrOf (fun p => { p with s5 := .running, startDone := false })).stage = []
      ∧ (pwrOf (fun p => { p with s5 := .running, startDone := false })).pwr.wait
          &&& (pwrOf (fun p => { p with s5 := .running, startDone := false })).pwr.req = 0
      ∧ on.img.state = .applied ∧ on.pwr.s2 = .done ∧ on.pwr.s3 = .done)
    ∧ ((s1 .started 3).pwr.wait.getLsbD 20 = true ∧ (s1 .started 3).isOn 20 = false
      ∧ ({ s1 .started 3 with img := { run := some { op := 0, phase := .powerUp } } } : State).img.run.map (·.op) = some 0)
    ∧ (({ s1 .started 3 with pwr := { wait := 0x800 } } : State).pwr.wait.getLsbD 11 = true ∧ (11 : Nat) ≠ 20
      ∧ (sweeping true).pwr.wait.getLsbD 17 = true ∧ (17 : Nat) ≠ 20) := by decide

theorem witness_DomainRequestsTripAndSupply :
    (on.responds .clkPwr = true ∧ on.pwr.tripped = false ∧ on.pwr.pllLock = true ∧ on.reqRefused 8 = false
      ∧ 3 ∈ on.reqBits ∧ 11 ∉ on.reqBits ∧ on.pwr.req.getLsbD 3 = false ∧ (8 : Word).getLsbD 3 = true)
    ∧ ((pwrOf (fun p => { p with req := 8 })).pwr.req.getLsbD 3 = true ∧ (pwrOf (fun p => { p with req := 8 })).mayOff 3 = true
      ∧ (pwrOf (fun p => { p with req := 8 })).reqRefused 0 = false)
    ∧ (on.stage = [] ∧ on.tdm.active = false ∧ (pwrOf (fun p => { p with req := 0x800000 })).tdm.active = false
      ∧ (pwrOf (fun p => { p with req := 0x800000 })).reqRefused 0 = false
      ∧ 23 ∈ (pwrOf (fun p => { p with req := 0x800000 })).reqBits
      ∧ (0 : Word).getLsbD 23 = false ∧ (pwrOf (fun p => { p with req := 0x800000 })).pwr.req.getLsbD 23 = true
      ∧ ({ pwrOf (fun p => { p with req := 0x800000 }) with shadow := { debugIntact := false } } : State).mayOff 23 = false)
    ∧ (({ pwrOf (fun p => { p with req := 8 }) with trks := [(0, { state := .running })] } : State).pwr.req.getLsbD 3 = true
      ∧ 3 ∈ ({ pwrOf (fun p => { p with req := 8 }) with trks := [(0, { state := .running })] } : State).reqBits
      ∧ ({ pwrOf (fun p => { p with req := 8 }) with trks := [(0, { state := .running })] } : State).mayOff 3 = false)
    ∧ (({ on with cal := { tripRun := 4 } } : State).responds .cal = true ∧ 4 ≤ ({ on with cal := { tripRun := 4 } } : State).cal.tripRun
      ∧ ({ on with cal := { tripRun := 4 } } : State).pwr.tripped = false)
    ∧ (trkOf 0 { state := .running }).trk 0 ≠ {} ∧ ((trkOf 0 { state := .running }).trk 0).started = true := by decide

def item1 : Xfer := { seq := 0, crew := 1, origin := .ring 1 0 0, op := .bulkOut, trunk := 0 }
theorem witness_FunctionResetsClearAndKeep :
    (on.pwr.stage = .started ∧ on.crs = false ∧ ((trkOf 0 { state := .running }).trk 0).started = true ∧ on.img.run = none)
    ∧ ((1 : Fin 64) ≠ 0 ∧ on.pci.vfEnable = true ∧ (1 : Fin 64).val ≤ on.pci.numVfs ∧ (on.crew 1).st = .running
      ∧ on.crewQuiet 1 = true) := by decide

theorem witness_ConfigurationAndBusMasterEnable :
    (State.reset.stage = [] ∧ (pwrOf (fun p => { p with s5 := .running })).isOn 2 = true)
    ∧ ((s1 .started 7).isOn 2 = true ∧ (s1 .started 7).crs = true)
    ∧ (on.stage = [] ∧ on.isOn 2 = true ∧ on.crs = false ∧ on.fnExists 0 = true ∧ on.fnExists 2 = true ∧ on.fnExists 3 = false)
    ∧ ((on.crew 1).bme = true ∧ (on.crew 2).bme = false ∧ (State.reset.crew 1).bme = false)
    ∧ ((({ on with crews := [(1, { vecs := [(3, { masked := false, pba := true })] })] } : State).crew 1).vec 3).pba = true
    ∧ ((({ on with crews := [(1, { vecs := [(3, { masked := false, pba := true })] })] } : State).crew 1).vec 3).masked = false := by
  decide

theorem witness_UserCalibrationTakesEffectByClass :
    (on.stage = [] ∧ on.responds .cal = true ∧ (9 : Fin 21) < 10 ∧ (5 : Word).toInt ≠ Tab.get 0 on.cal.userForce 9)
    ∧ (10 : Fin 21) ≤ 10
    ∧ (Tab.get 0 ({ on with cal := { userForce := [(2, 7)] } } : State).cal.userForce 2 ≠ 0
      ∧ ({ on with cal := { userForce := [(2, 7)] } } : State).responds .cal = true) := by decide

def calOf (f : Cal → Cal) : State := { on with cal := f on.cal }
theorem witness_MonitorsReadEnterAndLeave :
    (on.stage = [] ∧ on.responds .cal = true ∧ on.cal.vmon[0]? = some ⟨0, false, 760, 840, 0, 0⟩
      ∧ on.cal.warn = false ∧ on.cal.warnRun < 4 ∧ on.cal.alarm = false ∧ on.cal.alarmRun < 4)
    ∧ ((calOf (fun c => { c with warnRun := 4 })).cal.warn = false ∧ (calOf (fun c => { c with warnRun := 4 })).responds .cal = true)
    ∧ ((calOf (fun c => { c with alarmRun := 4 })).cal.alarm = false)
    ∧ ((calOf (fun c => { c with warn := true, warnBack := 4 })).cal.warnBack = 4)
    ∧ ((calOf (fun c => { c with alarm := true, alarmBack := 4 })).cal.alarmBack = 4)
    ∧ ((calOf (fun c => { c with vmon := [⟨0, false, 760, 840, 4, 0⟩] })).cal.vmon[0]? = some ⟨0, false, 760, 840, 4, 0⟩)
    ∧ ((calOf (fun c => { c with vmon := [⟨0, true, 760, 840, 0, 4⟩] })).cal.vmon[0]? = some ⟨0, true, 760, 840, 0, 4⟩)
    ∧ ((calOf (fun c => { c with vmon := [⟨0, true, 760, 840, 0, 3⟩] })).cal.vmon[0]? = some ⟨0, true, 760, 840, 0, 3⟩) := by decide

def quiet : State := imgOf (fun i => { i with run := none, pushLen := 4096 })
theorem witness_ImageOperationsBeginOneAtATime :
    (quiet.stage = [] ∧ quiet.responds .img = true ∧ quiet.img.run = none ∧ quiet.pwr.tripped = false)
    ∧ (({ quiet with crews := [] } : State).imgBlocked = false ∧ ({ quiet with crews := [] } : State).crewExists = false
      ∧ ({ quiet with crews := [] } : State).allStopped = true ∧ quiet.img.pushLen ≤ 0x100000 ∧ quiet.img.pushLen % 16 = 0)
    ∧ (({ quiet with img := { state := .loader, slotAReason := 1 } } : State).imgBlocked = false
      ∧ ({ quiet with img := { state := .loader, slotAReason := 1 } } : State).responds .img = true)
    ∧ (quiet.imgBlocked = false ∧ quiet.img.state = .applied)
    ∧ (({ quiet with img := { quiet.img with kept := some [] } } : State).img.kept.isSome = true ∧ quiet.straps.boot = false
      ∧ quiet.img.source ≠ 1 ∧ quiet.img.source ≠ 2)
    ∧ quiet.img.applied.isSome = true
    ∧ (({ quiet with img := { state := .loader } } : State).img.state = .loader
      ∧ ({ quiet with img := { state := .loader } } : State).shadow.keyHash = none)
    ∧ ((imgOf (fun i => { i with run := some { op := 1, phase := .reading } })).responds .img = true
      ∧ (imgOf (fun i => { i with run := some { op := 1, phase := .reading } })).img.run ≠ none
      ∧ ((Instr.pushFull, 1) : Instr × Nat) ∈ [(Instr.pushFull, 1), (.pushDelta, 2)]) := by decide

/-- A number as an octet string. -/
def octets (k n : Nat) : List Byte := (leBytes k n).reverse
/-- The P-256 key and signatures below are of RFC 6979's example key. -/
def ownerKey : List Byte :=
  octets 32 0x60FED4BA255A9D31C961EB74C6356D68C049B8923B61FA6CE669622E60F29FB6
    ++ octets 32 0x7903FE1008B8BC99A41AE9E95628BC64F2F1B20C2D7E9F5177A3C294D4462299
/-- The smallest full image: a structure section alone (trunk T0, no crew), signed with `ownerKey`. -/
def structSec : List Byte := [0, 1] ++ List.replicate 510 0
def signedImage : List Byte :=
  [0x46, 0x4C, 0x41, 0x54] ++ leBytes 2 1 ++ [1, 1, 0, 0] ++ leBytes 2 1 ++ leBytes 4 752 ++ leBytes 8 7 ++ List.replicate 40 0
    ++ leBytes 2 1 ++ leBytes 2 0 ++ leBytes 4 112 ++ leBytes 4 512 ++ leBytes 4 0
    ++ octets 32 0x6BAFE4F53B35A27D41C72C80D8FDFCD2ACA79CE310B990EE55C7A04D65B6E96F ++ structSec ++ ownerKey
    ++ octets 32 0x471C3E758C4904285BBA7E53118ED0F524ADEB0757D25BD2F8E7B0D76DFA714C
    ++ octets 32 0x9C3A5933EB00EA60BAEDD66C7071F44546E32984879692618FEEF698D13D9FA9
def owned : Fuses := { keyHash := some (sha256 ownerKey) }
def pushing : State :=
  { State.reset with fuse := owned, shadow := owned, pins := { perstHigh := true }
                     pwr := { stage := .started, s2 := .done, s3 := .done, s4 := .done, on := 0x7FFFFF }
                     img := { state := .loader, pushLen := 752, busy := true, run := some { op := 1, phase := .checking, data := signedImage } } }
/-- A delta that takes crew 1's section out, signed with `ownerKey`, and the image it is applied to. -/
def structDigest1 : List Byte := octets 32 0x6BAFE4F53B35A27D41C72C80D8FDFCD2ACA79CE310B990EE55C7A04D65B6E96F
def deltaImage : List Byte :=
  [0x46, 0x4C, 0x41, 0x54] ++ leBytes 2 1 ++ [2, 1, 0, 0] ++ leBytes 2 1 ++ leBytes 4 240 ++ leBytes 8 8 ++ List.replicate 40 0
    ++ leBytes 2 1 ++ leBytes 2 0 ++ leBytes 4 0 ++ leBytes 4 512 ++ leBytes 4 0 ++ structDigest1 ++ ownerKey
    ++ octets 32 0x471C3E758C4904285BBA7E53118ED0F524ADEB0757D25BD2F8E7B0D76DFA714C
    ++ octets 32 0x935C3C414B703A22FFFEDE12EC058818D8F77A89DFAF59BC9F4380EB612177AA
def patched : Image :=
  { image with hdr := { image.hdr with rollback := 0 }, table := [⟨1, 0, 112, 512, structDigest1⟩, ⟨2, 1, 624, 512, []⟩] }
def patching : State :=
  { on with fuse := owned, shadow := owned, crews := [(0, { bme := true })]
            img := { state := .applied, applied := some patched, source := 3, pushLen := 240, busy := true,
                     run := some { op := 2, phase := .checking, data := deltaImage } } }
theorem witness_ImagesAreAppliedOrRejected_delta :
    patching.stage = [] ∧ patching.img.run.map (fun r => (r.op, r.phase == .checking, r.bytes == deltaImage)) = some (2, true, true)
    ∧ (verifyImage patching 2 240 deltaImage).reason = imNone ∧ (verifyImage patching 2 240 deltaImage).crew = some 1
    ∧ ((verifyImage patching 2 240 deltaImage).image.map (fun im => (im.crews.length, im.crewMax))) = some (0, 2) := by
  decide +kernel
theorem witness_ImagesAreAppliedOrRejected_passes :
    pushing.img.run.map (fun r => (r.op, r.phase == .checking, r.bytes == signedImage)) = some (1, true, true) ∧ pushing.pushOk = true
    ∧ [752, 0x100000].all (fun avail => (verifyImage pushing 1 avail signedImage).reason == imNone
        && (verifyImage pushing 1 avail signedImage).crew == none
        && ((verifyImage pushing 1 avail signedImage).image.map (fun im => im.trunkEnable)) == some 1) = true := by decide +kernel
theorem witness_ImagesAreAppliedOrRejected :
    ((imgOf (fun i => { i with run := some { op := 1, phase := .checking } })).img.run = some { op := 1, phase := .checking }
      ∧ (verifyImage (imgOf (fun i => { i with run := some { op := 1, phase := .checking } })) 1 0 []).image = none
      ∧ (verifyImage (imgOf (fun i => { i with run := some { op := 1, phase := .checking } })) 1 0 []).reason ≠ imBpUnsupported)
    ∧ ((imgOf (fun i => { i with run := some { op := 0, phase := .checking } })).img.run = some { op := 0, phase := .checking }
      ∧ (verifyImage (imgOf (fun i => { i with run := some { op := 0, phase := .checking } })) 1 0x100000 []).image = none)
    ∧ (on.shadow.keyHash = none ∧ ({ on with shadow := { keyHash := some [] } } : State).shadow.keyHash ≠ none
      ∧ leAt [] 0 4 ≠ 0x54414C46) := by decide

theorem witness_StoresAndFusesAreWritten :
    ((imgOf (fun i => { i with run := some { op := 3, phase := .header, data := [1] } })).img.run
        = some { op := 3, phase := .header, data := [1] }
      ∧ on.stage = [] ∧ ([1, 2] : List Byte).take 1 = [1] ∧ ([2] : List Byte).take 1 ≠ [1])
    ∧ ((imgOf (fun i => { i with run := some { op := 3, phase := .eraseBad, result := 255 } })).stage = [] ∧ 255 < 256)
    ∧ ((imgOf (fun i => { i with run := some { op := 3, phase := .erasing, pos := 14 } })).img.run
        = some { op := 3, phase := .erasing, pos := 14 } ∧ 14 < 15)
    ∧ ((imgOf (fun i => { i with run := some { op := 3, phase := .erasing, pos := 15 } })).img.run
        = some { op := 3, phase := .erasing, pos := 15 } ∧ 15 ≤ 15)
    ∧ ((imgOf (fun i => { i with keptLen := 752, run := some { op := 3, phase := .programming } })).img.run
        = some { op := 3, phase := .programming }
      ∧ 0 + 0x100 < (imgOf (fun i => { i with keptLen := 752, run := some { op := 3, phase := .programming } })).img.keptLen)
    ∧ ((imgOf (fun i => { i with run := some { op := 4, phase := .blowing } })).img.applied = some image)
    ∧ ((imgOf (fun i => { i with run := some { op := 5, phase := .blowing } })).img.run = some { op := 5, phase := .blowing }) := by
  decide

/-- The hub at position 1 of trunk `n`, attached at address 5, and `f` on the trunk. -/
def hubEntry (n : Nat) : Entry :=
  { trunk := n, hub := 1, port := 0, addr := 5, owner := 0, attached := true, isHub := true, identity := [], config := [] }
def hubbed (n : Nat) (t : Trk) : State := { trkOf n t with ros := { entries := [(3, hubEntry n)] } }

theorem witness_TrunksStartAndStop :
    (on.stage = [] ∧ on.responds (.trk 0) = true ∧ on.exists? 0 = true ∧ (on.trk 0).state = .stopped ∧ on.firstStart 0 = false
      ∧ on.responds (.trk 7) = true ∧ on.firstStart 7 = false)
    ∧ (((trkOf 0 { startWait := true }).trk 0).startWait = true ∧ on.pins.vddio33Ok = true ∧ on.pairFed 0 = false
      ∧ ((trkOf 7 { startWait := true }).trk 7).startWait = true ∧ on.pairFed 7 = true ∧ on.tdm.active = false
      ∧ ({ trkOf 7 { startWait := true } with tdm := { active := true } } : State).tdm.active = true)
    ∧ (firstBow.responds (.trk 7) = true ∧ firstBow.exists? 7 = true ∧ (firstBow.trk 7).state = .stopped
      ∧ firstBow.firstStart 7 = true ∧ firstBow.tdm.epochValid = false
      ∧ ({ firstBow with tdm := { firstBow.tdm with epochValid := true } } : State).firstStart 7 = true)
    ∧ ((trkOf 0 { state := .running, hold := true }).responds (.trk 0) = true
      ∧ ((trkOf 0 { state := .running, hold := true }).trk 0).quiesced = true
      ∧ ((trkOf 0 { state := .running }).trk 0).quiesced = false) := by decide

def changing (c : RateChg) : State := trkOf 0 { state := .rateChange, rateChg := some c }
theorem witness_RateChangeRunsItsSteps :
    (on.stage = [] ∧ (trkOf 0 { state := .running, hold := true, rate := 1 }).responds (.trk 0) = true ∧ on.pairFed 0 = false
      ∧ ((trkOf 0 { state := .running, hold := true, rate := 1 }).trk 0).rate
          ≠ ((trkOf 0 { state := .running, hold := true, rate := 1 }).trk 0).rateEff
      ∧ ((trkOf 0 { state := .running, hold := true, rate := 1 }).trk 0).quiesced = true
      ∧ ((trkOf 0 { state := .running, hold := true, rate := 1 }).trk 0).quarantined = false)
    ∧ (on.pairFed 7 = true ∧ on.tdm.active = false ∧ on.responds (.trk 7) = true)
    ∧ ((changing { start := 0, electricalIdle := true }).trk 0).rateChg = some { start := 0, electricalIdle := true }
    ∧ ((changing { start := 0, resumed := true, tries := 3 }).trk 0).rateChg = some { start := 0, resumed := true, tries := 3 }
    ∧ (((changing { start := 0, resumed := true, tries := 3, hop := 2 }).trk 0).quarantined = false)
    ∧ 0 + 16 ≤ ({ changing { start := 0, resumed := true } with frame := 16 } : State).frame := by decide

theorem witness_LockAndLineFaults :
    (on.stage = [] ∧ ((trkOf 0 { lock := true, state := .running }).trk 0).lock = true
      ∧ ((trkOf 0 { lock := true, state := .parked }).trk 0).state = .parked)
    ∧ (((trkOf 0 { urxen := true, polTold := true }).trk 0).urxen = true ∧ ((trkOf 0 { urxen := true }).trk 0).polTold = false
      ∧ ((trkOf 0 { urxen := true }).trk 0).state ≠ .parked)
    ∧ (((trkOf 7 { urxen := true, state := .parked, tryRate := some 2 }).trk 7).tryRate = some 2)
    ∧ (((trkOf 0 { state := .running }).trk 0).state ≠ .stopped ∧ ((trkOf 0 { state := .running }).trk 0).state ≠ .starting)
    ∧ ((on.trk 0).state = .stopped ∧ ((trkOf 0 { state := .starting }).trk 0).state = .starting)
    ∧ (((trkOf 0 { lfault := true, quarantined := true, state := .fault }).trk 0).lfault = true ∧ on.pins.vddio33Ok = true
      ∧ (trkOf 0 { lfault := true, quarantined := true, state := .fault }).mayDrive 0 = true
      ∧ (trkOf 7 { lfault := true, quarantined := true, state := .parked }).mayDrive 7 = false) := by decide

theorem witness_ParkedPortsFollowTheActiveUnit :
    (((trkOf 7 { state := .parked }).trk 7).state = .parked ∧ (trkOf 7 { state := .parked }).pairFed 7 = true
      ∧ on.tdm.epochValid = false)
    ∧ ((({ on with tdm := { epoch := 200, epochValid := true } } : State).tdm.epoch = 200)
      ∧ (71 + 256 - 200 % 256) % 256 = 127 ∧ (72 + 256 - 200 % 256) % 256 = 128 ∧ (200 + 256 - 200 % 256) % 256 = 0)
    ∧ (((trkOf 7 { state := .parked, tryRate := some 2 }).trk 7).tryRate = some 2) := by decide

def attaching (a : Attach) : State := hubbed 0 { state := .running, attach := some a }
theorem witness_AttachTakesTheFirstRecord :
    (((trkOf 0 { state := .running, attachQ := [(0, 16)] }).trk 0).attachQ.find? ((trkOf 0 { state := .running, attachQ := [(0, 16)] }).attachable 0)
        = some (0, 16)
      ∧ on.stage = [] ∧ ((trkOf 0 { state := .running, attachQ := [(0, 16)] }).trk 0).attach = none
      ∧ (trkOf 0 { state := .running, attachQ := [(0, 16)] }).behind 0 0 16 = (1, 0)
      ∧ (trkOf 0 { state := .running, attachQ := [(0, 16)] }).entryAt 0 1 0 = none)
    ∧ (((hubbed 0 { state := .running, attachQ := [(1, 3)] }).trk 0).attachQ.find? ((hubbed 0 { state := .running, attachQ := [(1, 3)] }).attachable 0)
        = some (1, 3)
      ∧ (hubbed 0 { state := .running, attachQ := [(1, 3)] }).behind 0 1 3 = (1, 3)
      ∧ (hubbed 0 { state := .running, attachQ := [(1, 3)] }).entryAt 0 1 3 = none
      ∧ (hubbed 0 { state := .running, attachQ := [(1, 3)] }).entryAt 0 1 0 = some (3, hubEntry 0)
      ∧ Keyed.lowestFree (hubbed 0 { state := .running, attachQ := [(1, 3)] }).xfers 1024 4096 = some 4096)
    ∧ (((trkOf 0 { state := .running }).trk 0).state = .running ∧ ((trkOf 0 { state := .running }).trk 0).quarantined = false) := by
  decide

theorem witness_AttachGoesStepByStep :
    (((attaching { hub := 1, port := 3, step := 1, result := some stOk }).trk 0).attach = some { hub := 1, port := 3, step := 1, result := some stOk }
      ∧ Keyed.lowestFree (attaching { hub := 1, port := 3, step := 1, result := some stOk }).xfers 1024 4096 = some 4096)
    ∧ (((attaching { hub := 1, port := 3, result := some stOk }).trk 0).unacted = []
      ∧ Keyed.lowestFree (attaching { hub := 1, port := 3, result := some stOk }).xfers 1024 4096 = some 4096
      ∧ ((hubbed 0 { unacted := [(5, [])], attach := some { hub := 1, port := 3, result := some stOk } }).trk 0).unacted ≠ []
      ∧ ((hubbed 0 { unacted := [(5, [])], attach := some { hub := 1, port := 3, result := some stOk } }).trk 0).attach
        = some { hub := 1, port := 3, result := some stOk })
    ∧ (((attaching { hub := 1, port := 3, tries := 2, result := some stAborted }).trk 0).attach
        = some { hub := 1, port := 3, tries := 2, result := some stAborted } ∧ isSuccess stAborted = false)
    ∧ ((attaching { hub := 0, port := 16, step := 3, result := some stOk, entry := some 3 }).entry 3 = some (hubEntry 0))
    ∧ (((attaching { hub := 1, port := 3, failed := true }).trk 0).attach = some { hub := 1, port := 3, failed := true })
    ∧ ((attaching { hub := 0, port := 16, failed := true, entry := some 3, isNew := true }).entry 3 = some (hubEntry 0)
      ∧ (attaching { hub := 0, port := 16, failed := true, entry := some 3 }).entry 3 = some (hubEntry 0)) := by decide

def heldSlot : Held := { trunk := 0, hub := 1, port := 3, entry := 4, identity := [7] }
def nodeEntry : Entry := { trunk := 0, hub := 1, port := 3, addr := 9, owner := 1, identity := [8], config := [] }
def held : State := { hubbed 0 { state := .running } with ros := { entries := [(3, hubEntry 0), (4, nodeEntry)], held := [(15, heldSlot)] } }
theorem witness_HeldSlotsAndRosterDelete :
    (held.stage = [] ∧ held.responds .ros = true ∧ held.ros.busy = false ∧ 15 < 4096 ∧ Keyed.find held.ros.held 15 = some heldSlot
      ∧ held.entry heldSlot.entry = some nodeEntry ∧ heldSlot.port ≠ 0)
    ∧ (({ held with ctxs := [(2, { used := true, addr := 9 })] } : State).ctx 2).used = true
    ∧ (({ held with ros := { entries := [(4, nodeEntry)] } } : State).entry 4 = some nodeEntry ∧ nodeEntry.attached = false
      ∧ ({ held with ros := { entries := [(4, nodeEntry)] } } : State).ros.held.any (fun h => h.2.entry == 4) = false)
    ∧ (({ held with ros := { busy := true } } : State).responds .ros = true ∧ ({ held with ros := { busy := true } } : State).ros.run = none
      ∧ Instr.rosReject 0 ∈ [Instr.rosAdopt 0, .rosAcceptNew 0, .rosReject 0]) := by decide

def slept (v : Sleep) : State := trkOf 0 { state := .running, sleep := v }
theorem witness_SleepStartsAndWakes :
    ((slept .awake).responds .ros = true ∧ (slept .awake).ros.busy = false ∧ (slept .awake).scopeBusy 0 0 16 = false
      ∧ (slept .awake).scopeCut 0 0 16 = false)
    ∧ ((hubbed 0 {}).scopeBusy 0 1 15 = false ∧ (hubbed 0 {}).scopeCut 0 1 15 = false
      ∧ (hubbed 0 {}).entryAt 0 1 0 = some (3, hubEntry 0) ∧ Keyed.lowestFree (hubbed 0 {}).xfers 1024 4096 = some 4096)
    ∧ ((slept .asleep).trk 0).sleep = .asleep
    ∧ ((slept (.eve 0)).trk 0).sleep = .eve 0
    ∧ (({ slept (.eve 0) with ros := { busy := true, run := some { op := 5, trunk := 0, hub := 0, port := 16 } } } : State).ros.run
        = some { op := 5, trunk := 0, hub := 0, port := 16 })
    ∧ (((slept (.waking 1 true)).trk 0).sleep = .waking 1 true ∧ (slept (.waking 1 true)).driven 0 = true
      ∧ ((trkOf 7 { state := .parked, sleep := .waking 1 true }).trk 7).sleep = .waking 1 true
      ∧ (trkOf 7 { state := .parked, sleep := .waking 1 true }).driven 7 = false)
    ∧ on.stage = [] := by decide

theorem witness_FrameBoundarySofAndGuard :
    (({ on with tim := { running := false } } : State).tim.running = false ∧ on.tim.running = true ∧ on.tdm.handFrame = none)
    ∧ (on.pairFed 0 = false
      ∧ ((trkOf 0 { state := .running, dtxen := true }).trk 0).dtxen = true
      ∧ ((trkOf 0 { state := .running, dtxen := true }).trk 0).quarantined = false
      ∧ ((trkOf 0 { state := .running, dtxen := true }).trk 0).headIdle = false
      ∧ ((trkOf 0 { state := .running, dtxen := true }).trk 0).stopReq = false
      ∧ ((trkOf 0 { state := .running, dtxen := true }).trk 0).rateChg = none
      ∧ ((trkOf 0 { state := .running, dtxen := true }).trk 0).pruneAt = none
      ∧ ((trkOf 0 { state := .running, dtxen := true }).trk 0).mode = .whole
      ∧ ((trkOf 0 { state := .running, dtxen := true }).trk 0).sleep = .awake)
    ∧ ((∀ e ∈ ((trkOf 0 { exchanges := [⟨1, false⟩] }).trk 0).exchanges, e.good = false ∧ 1 ≤ e.hop)
      ∧ (∀ e ∈ ((trkOf 0 { exchanges := [⟨1, true⟩] }).trk 0).exchanges, e.good = true ∧ 1 ≤ e.hop)) := by decide

theorem witness_UrgentPartAndFreeLine :
    (((trkOf 0 { part := 1 }).trk 0).part ≠ 0 ∧ (on.trk 0).part = 0)
    ∧ (((trkOf 0 { part := 3 }).trk 0).part ≠ 1 ∧ ((trkOf 0 { part := 3 }).trk 0).part ≠ 2) := by decide

/-- A node at hub 1, port 3, address 9, with periodic IN endpoint 1 in context 2 of crew 1. -/
def node : Entry := { nodeEntry with attached := true }
def ctxIn : Ctx := { used := true, addr := 9, ep := 1, entry := 4, owner := 1, kind := 1, maxPacket := 8,
                     alm := { valid := true, offHead := 1000, costHead := 50 } }
def lined (x : Ctx) (t : Trk) : State :=
  { hubbed 0 t with ros := { entries := [(3, hubEntry 0), (4, node)] }, ctxs := [(2, x)] }
/-- An occurrence of context 2 in slot 31. -/
def poll (k : TxnKind) : Txn :=
  { slot := 31, kind := k, purpose := .occurrence, addr := 9, ep := 1, hub := 1, hop := 1, ctx := some 2, crew := 1 }
def plan : Resv := ⟨1000, 20, 30, 50, true, some 2⟩
theorem witness_OccurrencesReachTheirOffset :
    ((on.trk (on.ctx 2).trunk).resv.find? (fun r => r.planned == some 2) = none)
    ∧ (((lined ctxIn { state := .running, resv := [plan] }).trk 0).resv.find? (fun r => r.planned == some 2) = some plan
      ∧ (lined ctxIn { state := .running, resv := [plan] }).pairFed 0 = false
      ∧ (lined ctxIn { state := .running, resv := [plan] }).ctxReach 2 = (.ok, true)
      ∧ (lined ctxIn { state := .running, resv := [plan] }).blocked 0 9 1 none = false
      ∧ ((lined ctxIn { state := .running, resv := [plan] }).ctx 2).permits = true
      ∧ (lined ctxIn { state := .running, resv := [plan] }).ctxBusy 0 2 = false
      ∧ ((lined ctxIn { state := .running, resv := [plan] }).trk 0).freeSlot = some 0
      ∧ ((lined ctxIn { state := .running, resv := [plan] }).trk 0).hold = false
      ∧ ((lined ctxIn { state := .running, resv := [plan] }).trk 0).claimFrame = false
      ∧ ((lined ctxIn { state := .running, resv := [plan] }).ctx 2).halted = false
      ∧ (lined ctxIn { state := .running, resv := [plan] }).oneFirst 2 = false
      ∧ ({ ctxIn with epm := { state := .full, withhold := ⟨true, true⟩ } } : Ctx).permits = false)
    ∧ ((lined ctxIn { state := .running, resv := [plan], slots := [poll (.tokenP false)] }).ctxBusy 0 2 = true
      ∧ (lined ctxIn { state := .running, resv := [plan], slots := [poll (.tokenP false)] }).ctxReach 2 = (.ok, true)
      ∧ (lined ctxIn { state := .running, resv := [plan], slots := [poll (.tokenP false)] }).blocked 0 9 1 none = false) := by decide

theorem witness_ControlBulkStartSharesTime :
    (2 ≤ ((trkOf 0 { part := 2 }).trk 0).part)
    ∧ (((trkOf 0 { part := 1 }).trk 0).part < 2 ∧ (trkOf 0 { part := 1 }).hubAt 0 1 ∉ (trkOf 0 { part := 1 }).hubsUp 0)
    ∧ ((hubbed 0 { state := .running, part := 1 }).hubAt 0 1 ∈ (hubbed 0 { state := .running, part := 1 }).hubsUp 0
      ∧ (hubbed 0 { state := .running, part := 1 }).hopOf 0 ((hubbed 0 { state := .running, part := 1 }).hubAt 0 1) = 1
      ∧ (hubbed 0 { state := .running, part := 1 }).reach 0 ((hubbed 0 { state := .running, part := 1 }).hubAt 0 1) 0 = .ok
      ∧ (hubbed 0 { state := .running, part := 1 }).mayOwn 0 = true
      ∧ ((hubbed 0 { state := .running, part := 1 }).trk 0).slots = [] ∧ ((hubbed 0 { state := .running, part := 1 }).trk 0).resv = []
      ∧ (hubbed 0 { state := .running, part := 1 }).nowOff ≤ ((hubbed 0 { state := .running, part := 1 }).trk 0).c0
      ∧ max ((hubbed 0 { state := .running, part := 1 }).trk 0).nextOff ((hubbed 0 { state := .running, part := 1 }).trk 0).c0
          + ((hubbed 0 { state := .running, part := 1 }).quant 0
              (hopTxn .measure 0 1 1 (hubbed 0 { state := .running, part := 1 }))).b ≤ 9700) := by decide

def almRun (op : Nat) (x : Ctx) : State :=
  { lined x { state := .running } with cox := { busy := true, run := some (op, 2, 0, 0) } }
theorem witness_AlmanacCommandsStartAndRemove :
    ((almRun 1 ctxIn).responds .cox = true ∧ (almRun 1 ctxIn).cox.busy = true ∧ on.responds .cox = true ∧ on.cox.busy = false
      ∧ State.reset.responds .cox = false ∧ Instr.almRead 0 ∈ [Instr.almAdd 0 0 0, .almRemove 0, .almRead 0])
    ∧ ((almRun 2 ctxIn).cox.run = some (2, 2, 0, 0) ∧ ((almRun 2 ctxIn).ctx 2).isPeriodic = true
      ∧ (almRun 2 ctxIn).isHubCtx ((almRun 2 ctxIn).ctx 2) = false ∧ ((almRun 2 ctxIn).ctx 2).alm.present = true
      ∧ ({ ctxIn with alm := {} } : Ctx).alm.present = false ∧ on.cox.run = none) := by decide

theorem witness_AlmanacAddPlacesFirstFit :
    (almRun 1 ctxIn).cox.run = some (1, 2, 0, 0) ∧ ({ ctxIn with kind := 3 } : Ctx).isPeriodic = false
    ∧ ((almRun 1 ctxIn).ctx 2).isPeriodic = true ∧ (almRun 1 ctxIn).isHubCtx ((almRun 1 ctxIn).ctx 2) = false
    ∧ ((almRun 1 ctxIn).ctx 2).alm.present = true
    ∧ (almRun 1 { ctxIn with alm := {} }).placesTail 0 = false := by decide


/-- 500 µs into a frame no transaction goes at an offset before 5000. -/
theorem test_no_offset_in_the_past :
    ({ hubbed 0 { state := .running, part := 2 } with tim := { ns := 1500000, nextBoundary := 2000000 } } : State).nowOff = 5000 := by
  decide
/-- A packet with good CRCs. -/
def pkt (h : BitVec 32) (b : List Byte) : RxPkt :=
  { hdr := h, crc8 := crc8 (hdrBytes h), payload := b, crc32 := crc32 b, framing := false }
def polled (x : Ctx) (k : TxnKind) : State := lined x { state := .running, slots := [poll k] }
def hubCtx : Ctx := { ctxIn with maxPacket := 64, alm := { valid := true, hubEv := true } }
theorem witness_PeriodicSamplesAreTaken :
    (((polled ctxIn (.tokenP false)).trk 0).inSlotNo 31 = some (poll (.tokenP false))
      ∧ (polled ctxIn (.tokenP false)).occCtx 0 (poll (.tokenP false)) = some 2
      ∧ (polled ctxIn (.tokenP false)).judge 0 (poll (.tokenP false)) (pkt (mkHdr ptDataP false false false 8 9 1 0 0) (List.replicate 8 7)) = .good
      ∧ hdrType (mkHdr ptDataP false false false 8 9 1 0 0) = ptDataP
      ∧ (hdrSq (mkHdr ptDataP false false false 8 9 1 0 0) % 2 == 1) = ctxIn.e
      ∧ (hdrSq (mkHdr ptDataP false false false 8 9 1 1 0) % 2 == 1) ≠ ctxIn.e
      ∧ (polled ctxIn (.tokenP false)).isExchange (poll (.tokenP false)) = true)
    ∧ ((polled hubCtx (.tokenP false)).occCtx 0 (poll (.tokenP false)) = some 2
      ∧ (polled hubCtx (.tokenP false)).judge 0 (poll (.tokenP false)) (pkt (mkHdr ptDataP false false false 4 9 1 0 0) [3, 1, 0, 0]) = .good
      ∧ ((polled hubCtx (.tokenP false)).trk 0).again = [] ∧ ((polled hubCtx (.tokenP false)).trk 0).attach = none
      ∧ (polled hubCtx (.tokenP false)).judge 0 (poll (.tokenP false)) (pkt (mkHdr ptDataP false false false 4 9 1 0 0) [3, 2, 0, 0]) = .good
      ∧ (polled hubCtx (.tokenP false)).entryAt 0 1 3 = some (4, node) ∧ node.attached = true
      ∧ (polled hubCtx (.tokenP false)).entry 4 = some node) := by
  decide +kernel

theorem witness_HandshakesOfOccurrences :
    (((polled { ctxIn with kind := 2 } (.dataP false [1])).trk 0).inSlotNo 31 = some (poll (.dataP false [1]))
      ∧ (polled { ctxIn with kind := 2 } (.dataP false [1])).judge 0 (poll (.dataP false [1])) (pkt (mkHdr ptAck false false false 0 9 1 0 0) []) = .good
      ∧ hdrType (mkHdr ptAck false false false 0 9 1 0 0) = ptAck)
    ∧ ((polled ctxIn (.tokenP false)).judge 0 (poll (.tokenP false)) (pkt (mkHdr ptNak false false false 0 9 1 0 0) []) = .good
      ∧ hdrType (mkHdr ptNak false false false 0 9 1 0 0) = ptNak)
    ∧ ((polled ctxIn (.tokenP false)).judge 0 (poll (.tokenP false)) (pkt (mkHdr ptStall false false false 0 9 1 0 0) []) = .good
      ∧ hdrType (mkHdr ptStall false false false 0 9 1 0 0) = ptStall) := by decide +kernel

def bulkTxn (k : TxnKind) (got : Nat) : Txn :=
  { slot := 0, kind := k, purpose := .transfer, addr := 9, ep := 1, hub := 1, hop := 1, ctx := some 2, xfer := some 6, crew := 1, got := got }
def bulkOf (op : WorkOp) (its : List Item) : Xfer :=
  { seq := 0, crew := 1, origin := .ring 1 0 0, op := op, trunk := 0, ctx := some 2, addr := 9, ep := 1, hub := 1, length := 16, items := its }
def bulk (x : Xfer) (y : Txn) : State :=
  { lined { ctxIn with kind := 4, alm := {} } { state := .running, slots := [y] } with xfers := [(6, x)] }
def twoItems : List Item := [{ data := [1], seq := some 0, len := 1 }, { data := [2], len := 1 }]
theorem witness_BulkBurstsInOrder :
    (((bulk (bulkOf .bulkOut twoItems) (bulkTxn (.dataB [(0, false, [1])]) 0)).trk 0).inSlotNo 0 = some (bulkTxn (.dataB [(0, false, [1])]) 0)
      ∧ (bulk (bulkOf .bulkOut twoItems) (bulkTxn (.dataB [(0, false, [1])]) 0)).xfer 6 = some (bulkOf .bulkOut twoItems)
      ∧ (bulkOf .bulkOut twoItems).open = true ∧ (bulkOf .bulkOut twoItems).stopping = none
      ∧ (bulkOf .bulkOut twoItems).ctx = some 2 ∧ (twoItems[1]?).map (·.acked) = some false
      ∧ (bulk (bulkOf .bulkOut twoItems) (bulkTxn (.dataB [(0, false, [1])]) 0)).judge 0 (bulkTxn (.dataB [(0, false, [1])]) 0)
          (pkt (mkHdr ptBurstAck false false false 0 9 1 1 0) []) = .good
      ∧ 1 = (hdrSq (mkHdr ptBurstAck false false false 0 9 1 1 0) + 16 - 0) % 16
      ∧ 1 < twoItems.length ∧ (∀ it ∈ twoItems.take 1, it.acked = false) ∧ hdrAux (mkHdr ptBurstAck false false false 0 9 1 1 0) = 0
      ∧ (bulk (bulkOf .bulkOut twoItems) (bulkTxn (.dataB [(0, false, [1])]) 0)).judge 0 (bulkTxn (.dataB [(0, false, [1])]) 0)
          (pkt (mkHdr ptBurstAck false false false 0 9 1 9 0) []) = .good
      ∧ 9 = (hdrSq (mkHdr ptBurstAck false false false 0 9 1 9 0) + 16 - 0) % 16)
    ∧ (((bulk (bulkOf .bulkIn []) (bulkTxn (.tokenB 0 2) 1)).trk 0).inSlotNo 0 = some (bulkTxn (.tokenB 0 2) 1)
      ∧ (bulk (bulkOf .bulkIn []) (bulkTxn (.tokenB 0 2) 1)).judge 0 (bulkTxn (.tokenB 0 2) 1) (pkt (mkHdr ptDataB false false false 2 9 1 0 0) [5, 6]) = .good
      ∧ hdrType (mkHdr ptDataB false false false 2 9 1 0 0) = ptDataB ∧ hdrSq (mkHdr ptDataB false false false 2 9 1 0 0) = 0
      ∧ hdrTe (mkHdr ptDataB false false false 2 9 1 0 0) = false ∧ (bulkOf .bulkIn []).got + 2 < (bulkOf .bulkIn []).length
      ∧ (bulkOf .bulkIn []).ptrs.tailOk = true ∧ (bulkOf .bulkIn []).ptrs.broken = false
      ∧ (bulkTxn (.tokenB 0 2) 1).broken = false ∧ (bulkTxn (.tokenB 0 2) 1).got < 2
      ∧ (bulk (bulkOf .bulkIn []) (bulkTxn (.tokenB 0 2) 1)).judge 0 (bulkTxn (.tokenB 0 2) 1) (pkt (mkHdr ptDataB false false false 2 9 1 3 0) [5, 6]) = .good
      ∧ hdrSq (mkHdr ptDataB false false false 2 9 1 3 0) ≠ 0) := by decide +kernel

def ask (k : TxnKind) (p : Purpose) : Txn := { slot := 0, kind := k, purpose := p, addr := 5, ep := 0, hub := 1, hop := 1, crew := 1 }
theorem witness_HopAndClaimAnswers :
    (((hubbed 0 { state := .running, slots := [ask (.hopReq 7) .measure] }).trk 0).inSlotNo 0 = some (ask (.hopReq 7) .measure)
      ∧ (hubbed 0 { state := .running, slots := [ask (.hopReq 7) .measure] }).judge 0 (ask (.hopReq 7) .measure)
          (pkt (mkHdr ptHopRsp false false false 0 5 0 0 7) []) = .good
      ∧ hdrType (mkHdr ptHopRsp false false false 0 5 0 0 7) = ptHopRsp
      ∧ 2000 + 2 * on.dtx 0 ≤ 400 * 5 ∧ 1040 * 5 ≤ 2000 + 2 * 1 * 1600 + 2 * on.dtx 0 ∧ 399 * 5 < 2000 + 2 * on.dtx 0)
    ∧ ((hubbed 7 { state := .running, slots := [ask (.hopReq 7) .claimConfirm] }).judge 7 (ask (.hopReq 7) .claimConfirm)
          (pkt (mkHdr ptHopRsp false false false 0 5 0 0 7) []) = .good)
    ∧ ((hubbed 7 { state := .running, slots := [ask (.claim 3 1) .seal] }).judge 7 (ask (.claim 3 1) .seal)
          (pkt (mkHdr ptClaim false false false 4 5 0 0 0) [3, 1, 0, 0]) = .good
      ∧ pktError (pkt (mkHdr ptClaim false false false 4 5 0 0 0) [3, 2, 0, 0]) = none
      ∧ hdrAddr (mkHdr ptClaim false false false 4 5 0 0 0) = 5 ∧ hdrEp (mkHdr ptClaim false false false 4 5 0 0 0) = 0) := by decide +kernel

theorem witness_LineErrorsCostAttempts :
    (((polled ctxIn (.tokenP false)).trk 0).inSlotNo 31 = some (poll (.tokenP false)) ∧ hasUp (.tokenP false) = true
      ∧ (polled ctxIn (.tokenP false)).occCtx 0 (poll (.tokenP false)) = some 2)
    ∧ ((polled ctxIn (.tokenP false)).judge 0 (poll (.tokenP false))
        { pkt (mkHdr ptDataP false false false 1 9 1 0 0) [7] with crc32 := 0 } = .bad .crc)
    ∧ (((lined ctxIn { exhausted := [poll (.tokenP false)] }).trk 0).exhausted = [poll (.tokenP false)]
      ∧ (poll (.tokenP false)).xfer = none ∧ (lined ctxIn { exhausted := [poll (.tokenP false)] }).occCtx 0 (poll (.tokenP false)) = some 2
      ∧ ((lined ctxIn {}).ctx 2).kind = 1)
    ∧ ((on.trk 0).exhausted = [])
    ∧ (((bulk (bulkOf .bulkOut twoItems) (bulkTxn (.dataB [(0, false, [1])]) 0)).trk 0).inSlotNo 0 = some (bulkTxn (.dataB [(0, false, [1])]) 0)
      ∧ (bulk (bulkOf .bulkOut twoItems) (bulkTxn (.dataB [(0, false, [1])]) 0)).xfer 6 = some (bulkOf .bulkOut twoItems)
      ∧ (bulkOf .bulkOut twoItems).origin = .ring 1 0 0 ∧ (bulkOf .bulkOut twoItems).stopping = none)
    ∧ (hdrType (mkHdr ptDataP false false false 1 9 1 0 0) ≠ 0 ∧ hdrType (mkHdr ptDataP false false false 1 9 1 0 0) ≠ 0xF
      ∧ hdrPayload (mkHdr ptDataP false false false 1 9 1 0 0) = ([7] : List Byte).length ∧ LineChar.ctrl Ctrl.k28_5 ≠ eop) := by decide +kernel


/-- R163: a copy that was not acknowledged goes again before newer staged data. -/
theorem test_unacknowledged_copy_goes_first :
    (({ state := .full, data := [2] } : Epm).keep (poll (.dataP false [1]))).outData = some [1]
      ∧ ({ state := .full, data := [2] } : Epm).outData = some [2] := by decide
theorem no_resets (j : Nat) : (on.crew j).st ≠ .resetting ∧ (on.crew j).st ≠ .tearingDown := by
  by_cases h0 : j = 0
  · subst h0; decide
  by_cases h1 : j = 1
  · subst h1; decide
  · have h : on.crew j = {} := by simp [State.crew, on, Tab.get, Keyed.find, h0, h1]
    rw [h]; decide

def cmdOf (f : CrwCmd → CrwCmd) : State := { on with cmd := f {} }
def newborn (st : CrewState) : State := { on with crews := [(0, { bme := true }), (1, { st := st })], cmd := { run := some (1, 1) } }
theorem witness_CrewCommandsTakeTurns :
    ((cmdOf (fun c => { c with busy := true })).responds .crw = true ∧ (cmdOf (fun c => { c with busy := true })).cmd.busy = true)
    ∧ (on.cmd.busy = false ∧ on.img.applied.isSome = true ∧ (newborn .absent).createReason 1 = cwOk ∧ on.createReason 1 ≠ cwOk)
    ∧ ((newborn .creating).cmd.run = some (1, 1) ∧ (newborn .creating).sec 1 = some section1 ∧ ((newborn .creating).crew 1).flrWait = false) := by
  decide
theorem witness_CrewCommandsTakeTurns_quiet (j : Nat) :
    ((newborn .creating).crew j).st ≠ .resetting ∧ ((newborn .creating).crew j).st ≠ .tearingDown := by
  by_cases h0 : j = 0
  · subst h0; decide
  by_cases h1 : j = 1
  · subst h1; decide
  · have h : (newborn .creating).crew j = {} := by simp [State.crew, newborn, Tab.get, Keyed.find, h0, h1]
    rw [h]; decide

def onLine : State := trkOf 0 { state := .running, slots := [ask (.hopReq 0) .measure] }
theorem witness_CrewResetAndTearDown :
    (on.stage = [] ∧ on.responds .crw = true ∧ on.cmd.busy = false ∧ on.img.applied.isSome = true ∧ (on.crew 1).st = .running
      ∧ on.crewQuiet 1 = true ∧ (∀ c ∈ on.ctxs, c.2.used = true → c.2.owner ≠ 1))
    ∧ (onLine.responds .crw = true ∧ (onLine.crew 1).st = .running ∧ (∃ x ∈ (onLine.trk 0).slots, x.crew = 1))
    ∧ (({ onLine with cmd := { busy := true, run := some (3, 1) }, crews := [(1, { st := .resetting })] } : State).cmd.run = some (3, 1)
      ∧ (({ onLine with cmd := { busy := true, run := some (3, 1) }, crews := [(1, { st := .resetting })] } : State).crew 1).st = .resetting)
    ∧ on.cmd.run = none ∧ (on.crew 0).st ≠ .resetting := by decide

def granting (f : CrwCmd → CrwCmd) : State :=
  { held with ros := { entries := [(4, { node with epmap := List.replicate 8 0 ++ [1, 0, 8, 0, 0, 0, 0, 0] })] },
              cmd := f { trunk := 0, addr := 9, ep := 1 } }
def revoked : State := { lined { ctxIn with revoking := true, alm := {} } {} with cmd := { busy := true, run := some (5, 0), revoke := some 2 } }
theorem witness_GrantsAndRevokes :
    ((granting id).responds .crw = true ∧ (granting id).cmd.busy = false ∧ ((granting id).crew 1).st = .running
      ∧ (granting id).grantCheck 0 9 1 1 = cwOk
      ∧ (granting id).entryOf 0 9 = some (4, { node with epmap := List.replicate 8 0 ++ [1, 0, 8, 0, 0, 0, 0, 0] })
      ∧ (granting id).entry 4 = some { node with epmap := List.replicate 8 0 ++ [1, 0, 8, 0, 0, 0, 0, 0] }
      ∧ (granting id).allocReason 0 1 1 8 = cwOk ∧ ((granting id).ctx 0).used = false
      ∧ (granting (fun c => { c with ep := 7 })).grantCheck 0 9 7 1 ≠ cwOk)
    ∧ (({ lined ctxIn {} with cmd := { trunk := 0, addr := 9, ep := 1 } } : State).ctxOf 0 9 1 = some 2
      ∧ ((lined ctxIn {}).ctx 2).revoking = false ∧ (lined ctxIn {}).responds .crw = true)
    ∧ (revoked.cmd.run = some (5, 0) ∧ revoked.cmd.revoke = some 2 ∧ (revoked.ctx 2).used = true ∧ revoked.revokeReady 2 = true) := by
  decide
theorem witness_GrantsAndRevokes_quiet (j : Nat) : (revoked.crew j).st ≠ .resetting ∧ (revoked.crew j).st ≠ .tearingDown := no_resets j

def bcastTxn : Txn := { bulkTxn (.bcast 0 [1]) 0 with crew := 1 }
theorem witness_QuotaShareAndBroadcast :
    (((cmdOf (fun c => { c with resource := 1, amount := 8 })).cmd.amount : Int) ≤ (cmdOf (fun c => { c with resource := 1, amount := 8 })).cellFree 1
      ∧ (cmdOf (fun c => { c with resource := 1, amount := 100000 })).cellFree 1 < (100000 : Int))
    ∧ ((cmdOf (fun c => { c with amount := 20, weight := 1 })).cmd.amount ≤ ((on.sec 1).map (·.bulkMin)).getD 0)
    ∧ (((on.sec 1).map (·.permBcast)).getD false = true
      ∧ (((imgOf (fun i => { i with applied := some { image with crews := [(1, { section1 with permBcast := false })] } })).sec 1).map
          (·.permBcast)).getD false = false)
    ∧ ((({ on with crews := [(1, { st := .running, bcast := true })] } : State).crew 1).bcast = true
      ∧ (∃ x ∈ ((trkOf 0 { slots := [bcastTxn] }).trk 0).slots, x.crew = 1 ∧ hasUp x.kind = false)
      ∧ on.trks.all (fun n => n.2.slots.all (fun x => x.crew != 1 || hasUp x.kind)) = true) := by decide

def mailed (up dn : Mbox) : State := { on with crews := [(1, { st := .running, mboxUp := up, mboxDn := dn })] }
theorem witness_MailboxesCarryMessages :
    (on.stage = [] ∧ on.responds .crw = true ∧ (on.crew 1).st = .running ∧ (on.crew 1).mboxUp.pending = false
      ∧ 1 % 256 = ((on.crew 1).mboxUp.seq + 1) % 256 ∧ 2 % 256 ≠ ((on.crew 1).mboxDn.seq + 1) % 256
      ∧ 0 % 256 = (((mailed { seq := 255 } {}).crew 1).mboxUp.seq + 1) % 256)
    ∧ (((mailed { pending := true, seq := 255 } {}).crew 1).mboxUp.pending = true ∧ ((mailed { pending := true, seq := 255 } {}).crew 1).mboxUp.seq = 255 % 256)
    ∧ (((mailed {} { pending := true, seq := 1 }).crew 1).mboxDn.pending = true ∧ ((mailed {} { pending := true, seq := 1 }).crew 1).mboxDn.seq = 1 % 256
      ∧ ((mailed {} { pending := true, seq := 1 }).crew 1).mboxDn.seq ≠ 2 % 256) := by decide


/-- Crew 1 with ring 0 and queue 0 as given; endpoint context 2 is its bulk OUT endpoint. -/
def ringed (g : Ring) (q : Cq) : State :=
  { bulk (bulkOf .bulkOut []) (bulkTxn (.dataB []) 0) with
    crews := [(0, { bme := true }), (1, { st := .running, bme := true, rings := [(0, g)], cqs := [(0, q)] })]
    xfers := [] }
def cqOn : Cq := { sizeLog2 := 4, enabled := true }
def ring0 (st : RingState) (pi : Word) : Ring := { sizeLog2 := 4, state := st, pi := pi }
theorem witness_RingsStartAndTakeDoorbells :
    ((ringed (ring0 .disabled 0) cqOn).stage = [] ∧ (ringed (ring0 .disabled 0) cqOn).regOk .window 1 .rng = true
      ∧ ((ringed (ring0 .disabled 0) cqOn).ring 1 0).state = .disabled
      ∧ (ringed (ring0 .disabled 0) cqOn).ringEnableOk 1 0 = true ∧ (ringed (ring0 .disabled 0) {}).ringEnableOk 1 0 = false)
    ∧ (((ringed (ring0 .running 4) cqOn).ring 1 0).state = .running ∧ 0 < ((ringed (ring0 .running 4) cqOn).ringLimit 1).1
      ∧ piOk 16 4 0 4 = true ∧ piOk 17 4 0 4 = false)
    ∧ ((ringed (ring0 .halted 0) cqOn).ring 1 0).state = .halted
    ∧ ((ringed (ring0 .running 0) cqOn).ring 1 0).pi = ((ringed (ring0 .running 0) cqOn).ring 1 0).done
    ∧ ((ringed (ring0 .running 4) cqOn).ring 1 0).pi ≠ ((ringed (ring0 .running 4) cqOn).ring 1 0).done := by decide

theorem witness_CompletionQueuesGiveSpace :
    (((ringed {} { sizeLog2 := 16 }).cq 1 0).enabled = false ∧ ((ringed {} { sizeLog2 := 16 }).cq 1 0).sizeOk = true
      ∧ (ringed {} { sizeLog2 := 16 }).regOk .window 1 .rng = true)
    ∧ (((ringed {} cqOn).cq 1 0).enabled = true ∧ (ringed {} cqOn).cqNamed 1 0 = false)
    ∧ (ringed (ring0 .halted 0) cqOn).cqNamed 1 0 = true
    ∧ (((16 : Word) - 0).toNat ≤ 2 ^ 4 ∧ ((0 : Word) - 0).toNat ≤ ((16 : Word) - 0).toNat
      ∧ 2 ^ 4 < ((16 : Word) - 17).toNat ∧ 2 ^ 4 < ((17 : Word) - 0).toNat) := by decide

def desc (op ctx len : Byte) : List Byte := [op, 0, ctx, 0, len, 0, 0, 0] ++ List.replicate 24 0
def fetching (l : List (List Byte)) : State := ringed { ring0 .running 4 with ahead := l } cqOn
theorem witness_FetcherTakesEntriesInTurn :
    (on.nextFetch = none)
    ∧ ((fetching []).nextFetch = some (1, 0) ∧ ((fetching []).ring 1 0).ahead = [] ∧ ((fetching []).crew 1).bme = true
      ∧ (fetching []).pci.tags.length < 64 ∧ Keyed.lowestFree (fetching []).pci.tags 64 0 = some 0)
    ∧ ((fetching [desc 0 0 0]).nextFetch = some (1, 0) ∧ (parseDesc (desc 0 0 0)).judge 1 (fetching [desc 0 0 0]) = .okay)
    ∧ ((parseDesc (desc 2 3 64)).judge 1 (fetching [desc 2 3 64]) = .notExecuted)
    ∧ ((parseDesc (desc 5 0 64)).judge 1 (fetching [desc 5 0 64]) = .denied)
    ∧ ((parseDesc (desc 2 2 64)).judge 1 (fetching [desc 2 2 64]) = .take ∧ opOf 2 = some .bulkOut
      ∧ (parseDesc (desc 2 2 64)).opcode = 2 ∧ (parseDesc (desc 2 2 64)).chain = false
      ∧ (fetching [desc 2 2 64]).tcUsed 1 ((parseDesc (desc 2 2 64)).trunk (fetching [desc 2 2 64]))
          < (fetching [desc 2 2 64]).tcQuota 1 ((parseDesc (desc 2 2 64)).trunk (fetching [desc 2 2 64]))
      ∧ (fetching [desc 2 2 64]).targetOf ((parseDesc (desc 2 2 64)).xfer 1 0 0 .bulkOut (fetching [desc 2 2 64])) = (.ok, true)) := by
  decide
theorem witness_FetcherTakesEntriesInTurn_context : Keyed.lowestFree (fetching []).xfers 4096 0 = some 0 := rfl

def tagged (st : RingState) : State := { ringed (ring0 st 4) cqOn with pci := { tags := [(63, ⟨1, 0, 128, .desc 1 0 0 4⟩)] } }
def chained : State := { ringed (ring0 .running 4) cqOn with xfers := [(7, { item1 with chain := true, chainOver := true })] }
theorem witness_ReadsEndAndRingsHalt :
    (Keyed.find on.pci.tags 63 = none)
    ∧ ((tagged .running).stage = [] ∧ Keyed.find (tagged .running).pci.tags 63 = some ⟨1, 0, 128, .desc 1 0 0 4⟩
      ∧ ((tagged .running).ring 1 0).state = .running ∧ Instr.completionTimeout 63 ∈
          [Instr.readCompletion 63 .unsupported, .readCompletion 63 .aborted, .completionTimeout 63])
    ∧ (chained.xfer 7 = some { item1 with chain := true, chainOver := true } ∧ item1.origin = .ring 1 0 0 ∧ item1.ended = false
      ∧ item1.stopping = none ∧ chained.inSlot 7 item1.trunk = false ∧ (chained.ring 1 0).state = .running)
    ∧ (∀ x ∈ on.xfers, x.2.chainOver = false) := by decide

def ents (l : List RingEnt) (q : Cq) : State := ringed { ring0 .running 4 with ents := l } q
def settled : RingEnt := { cmpl := true, outcome := some (stOk, 8) }
def okRec : Record := ⟨1, false, stOk, 8, 0⟩
/-- The completion writer holds a grant of the host-request arbiter. -/
def writerHolds (s : State) : State := { s with arbs := [(2, { holder := [(0, ⟨33, 1, 0, false⟩)] })] }
def nakking (n : Nat) : State := { on with xfers := [(6, { item1 with nakFrames := 4, naks := n })] }
def inXfer : Xfer := { item1 with op := .bulkIn, queue := true, ready := true, length := 8, items := [{ data := [1] }] }
/-- A bulk IN transfer with the only queue of its crew, and an item to move. -/
def lastQueue : State :=
  { on with xfers := [(6, inXfer)]
            img := { on.img with applied := some { image with crews := [(1, { section1 with queues := 1 })] } } }
theorem witness_RecordsAreWritten :
    (((ents [] cqOn).ring 1 0).nextRecord = none)
    ∧ (((ents [settled] cqOn).ring 1 0).nextRecord = some okRec ∧ ((ents [settled] cqOn).ring 1 0).cq = 0
      ∧ ((ents [settled] cqOn).crew 1).bme = true ∧ ((ents [settled] cqOn).cq 1 0).enabled = true
      ∧ (ents [settled] cqOn).crewRuns 1 = true
      ∧ ((ents [settled] cqOn).cq 1 0).full = false ∧ ((ents [settled] cqOn).ring 1 0).state ≠ .stopping
      ∧ (writerHolds (ents [settled] cqOn)).granted 2 33 = true ∧ (ents [settled] cqOn).granted 2 33 = false
      ∧ ((ents [settled] cqOn).cq 1 0).waiters = [] ∧ ((ents [settled] { cqOn with waiters := [0, 3] }).cq 1 0).waiters.head? = some 0
      ∧ ((ents [settled] { cqOn with waiters := [3] }).cq 1 0).waiters.head? = some 3 ∧ (3 : Nat) ≠ 0)
    ∧ (((ents [settled] { cqOn with tail := 16 }).cq 1 0).full = true ∧ ((ents [settled] { cqOn with tail := 16 }).cq 1 0).stalled = false)
    ∧ (((ents [settled] { cqOn with tail := 16, stalled := true }).cq 1 0).stalled = true)
    ∧ ((nakking 4).xfer 6 = some { item1 with nakFrames := 4, naks := 4 } ∧ (nakking 4).inSlot 6 0 = false ∧ item1.isIn = false
      ∧ item1.fin = none ∧ item1.nakFrames = 0 ∧ on.heldTrunk 0 = false
      ∧ ({ nakking 4 with trks := [(0, { state := .running, hold := true })] } : State).heldTrunk 0 = true)
    ∧ (lastQueue.responds .dma = true ∧ (lastQueue.chImg 31).owner = 1 ∧ (1 : Nat) ≠ 0xFF
      ∧ (lastQueue.chImg 31).purpose = 0 ∧ (lastQueue.ch 31).serve = none ∧ lastQueue.queueQuota 1 ≤ lastQueue.queuesUsed 1
      ∧ nextServed (lastQueue.ch 31).last (lastQueue.xfers.filter (fun x => lastQueue.wantsChannel 1 x.2)) = some (6, inXfer)
      ∧ lastQueue.xfer 6 = some inXfer ∧ inXfer.walkEnd = false ∧ inXfer.walking = false ∧ (hostSpan inXfer.links 0).2 = 0
      ∧ inXfer.written < inXfer.length) := by decide

/-- Stream channel 0 of the manager, as given, with context 2 of kind `kind` the manager's. -/
def stream (h : Ch) (kind : Nat) (e : Epm) : State :=
  { on with chs := [(0, h)], ctxs := [(2, { used := true, addr := 9, ep := 1, kind := kind, maxPacket := 8, epm := e })] }
def ch0 (st : ChState) : Ch := { state := st, sizeLog2 := 4, w := 12, record := true, cqSizeLog2 := 4 }
theorem witness_StreamChannelsStartAndStop :
    ((stream (ch0 .disabled) 1 {}).stage = [] ∧ (stream (ch0 .disabled) 1 {}).chAccess .bar0 0 0 = true
      ∧ ((stream (ch0 .disabled) 1 {}).ch 0).state = .disabled ∧ (stream (ch0 .disabled) 1 {}).chEnableOk 0 = true
      ∧ (stream {} 1 {}).chEnableOk 0 = false ∧ ((stream {} 1 {}).ch 0).state = .disabled)
    ∧ (((stream (ch0 .running) 1 {}).ch 0).due = none ∧ ((stream (ch0 .running) 1 {}).ch 0).pi = ((stream (ch0 .running) 1 {}).ch 0).ci
      ∧ ((stream (ch0 .running) 1 {}).ch 0).back = false
      ∧ (stream (ch0 .running) 1 {}).chQuiet 0 = true ∧ ((stream (ch0 .halted) 1 {}).ch 0).state = .halted)
    ∧ (piOk 16 0 0 4 = true ∧ piOk 17 0 0 4 = false ∧ headOk 16 0 16 4 = true ∧ ((stream (ch0 .running) 1 {}).ch 0).record = true)
    ∧ ((stream (ch0 .running) 1 {}).responds .dma = true ∧ (stream (ch0 .running) 1 {}).crewRuns 0 = true
      ∧ (stream (ch0 .running) 1 {}).bindReason 0 2 0 false = bdOk ∧ (stream (ch0 .running) 2 {}).bindReason 0 2 0 false ≠ bdOk
      ∧ (stream (ch0 .running) 1 { state := .full }).bindReason 0 2 0 false = bdOk
      ∧ (stream (ch0 .running) 1 {}).bindReason 0 2 0 true ≠ bdOk)
    ∧ ({ stream (ch0 .running) 1 {} with ctxs := [(2, { used := true, kind := 1, channel := some 0 })] } : State).bindReason 0 2 0 true = bdOk := by
  decide

/-- A stream descriptor: opcode, no flags, context, length. -/
def sdesc (op len : Byte) : List Byte := [op, 0, 2, 0, len, 0, 0, 0, 0, 0, 0, 0, 0, 0, 0, 0]
def chWith (op len : Byte) (f : Ch → Ch) : Ch := f { ch0 .running with desc := some (sdesc op len), pi := 1 }
def caught : Epm := { state := .full, data := [1, 2, 3] }
/-- Requester `i` holds the grant of arbiter `a`. -/
def holds (a i : Nat) (s : State) : State := { s with arbs := [(a, { holder := [(0, ⟨i, 1, 0, false⟩)] })] }
theorem witness_StreamDescriptorsMoveSamples :
    ((stream (chWith 1 0 (fun h => { h with pend := [2] })) 1 caught).chReady 0 1 = some (sdesc 1 0)
      ∧ ((stream (chWith 1 0 (fun h => { h with pend := [2] })) 1 caught).ch 0).pend = [2] ∧ leAt (sdesc 1 0) 0 4 / 256 % 2 = 0
      ∧ ((stream (chWith 1 0 id) 1 caught).ch 0).record = true ∧ (stream (chWith 1 0 id) 1 caught).beatOk 0 = false
      ∧ (holds 1 0 (stream (chWith 1 0 (fun h => { h with pend := [2] })) 1 caught)).beatOk 0 = true
      ∧ (holds 1 0 (stream (chWith 1 0 (fun h => { h with pend := [2] })) 1 caught)).chReady 0 1 = some (sdesc 1 0))
    ∧ ((stream (chWith 2 0 id) 1 {}).chReady 0 2 = some (sdesc 2 0) ∧ leAt (sdesc 2 0) 2 2 % 16384 = 2
      ∧ ((stream (chWith 2 0 id) 1 {}).ctx 2).used = true ∧ ((stream (chWith 2 0 id) 1 {}).ctx 2).kind = 1
      ∧ ((stream (chWith 2 0 id) 1 {}).ctx 2).owner = (stream (chWith 2 0 id) 1 {}).chOwner 0
      ∧ ((stream (chWith 2 0 id) 1 {}).ctx 2).epm.state = .never ∧ ((stream (chWith 2 0 id) 1 caught).ctx 2).epm.state ≠ .never
      ∧ (stream (chWith 2 0 id) 1 caught).chReady 0 2 = some (sdesc 2 0) ∧ leAt (sdesc 2 0) 0 4 / 256 % 2 = 0
      ∧ ((stream (chWith 2 0 id) 1 {}).ch 0).record = true ∧ (stream (chWith 2 0 id) 1 caught).beatOk 0 = false
      ∧ (holds 1 0 (stream (chWith 2 0 id) 1 caught)).beatOk 0 = true)
    ∧ ((stream (chWith 3 2 (fun h => { h with staged := some [5, 6] })) 2 {}).chReady 0 3 = some (sdesc 3 2)
      ∧ ((stream (chWith 3 2 (fun h => { h with staged := some [5, 6] })) 2 {}).ctx 2).kind = 2
      ∧ leAt (sdesc 3 2) 4 4 ≤ ((stream (chWith 3 2 (fun h => { h with staged := some [5, 6] })) 2 {}).ctx 2).longest
      ∧ ((stream (chWith 3 2 (fun h => { h with staged := some [5, 6] })) 2 {}).ctx 2).used = true
      ∧ ((stream (chWith 3 2 (fun h => { h with staged := some [5, 6] })) 2 {}).ctx 2).owner
          = (stream (chWith 3 2 (fun h => { h with staged := some [5, 6] })) 2 {}).chOwner 0
      ∧ ((stream (chWith 3 2 (fun h => { h with staged := some [5, 6] })) 2 {}).ch 0).record = true
      ∧ (holds 1 0 (stream (chWith 3 2 (fun h => { h with staged := some [5, 6] })) 2 {})).beatOk 0 = true
      ∧ ((stream (chWith 3 2 (fun h => { h with staged := some [5, 6] })) 2 {}).ch 0).staged = some [5, 6]
      ∧ ((stream (chWith 3 2 (fun h => { h with staged := some [5, 6] })) 2 {}).ctx 2).epm.state ≠ .full
      ∧ ({ caught with stageWait := ⟨true, true⟩ } : Epm).stageWait.inForce = true)
    ∧ (((stream (chWith 1 0 (fun h => { h with due := some { status := stOk } })) 1 {}).ch 0).due = some { status := stOk }
      ∧ (stream (chWith 1 0 (fun h => { h with due := some { status := stOk } })) 1 {}).streamDue 0 = true
      ∧ ((stream (chWith 1 0 (fun h => { h with due := some { status := stOk } })) 1 {}).ch 0).cqFull = false
      ∧ ((stream (chWith 1 0 (fun h => { h with due := some { status := stOk } })) 1 {}).ch 0).state ≠ .stopping
      ∧ (holds 2 33 (stream (chWith 1 0 (fun h => { h with due := some { status := stOk } })) 1 {})).granted 2 33 = true
      ∧ (stream (chWith 1 0 (fun h => { h with due := some { status := stOk } })) 1 {}).granted 2 33 = false
      ∧ ((stream (chWith 1 0 (fun h => { h with due := some { status := stOk }, cqTail := 16 })) 1 {}).ch 0).cqFull = true
      ∧ ((stream (chWith 1 0 (fun h => { h with due := some { status := stOk }, cqTail := 16 })) 1 {}).ch 0).cqStalled = false
      ∧ 2 ^ 4 ≤ ((16 : Word) - 0).toNat)
    ∧ (on.stage = [] ∧ (on.ch 0).desc = none) := by decide

def arbOf (a : Nat) (b : Arb) : State := { on with arbs := [(a, b)] }
def starving : ArbReq := { level := 0, burst := 4, waits := [(0, 4096)] }
/-- A write of channel 3 that waits for the host-request arbiter. -/
def waitingWrite : HostReq := ⟨3, 0, .write 0x1000 [1, 2] none⟩
theorem witness_ArbitersGrantByLevelAndTurn :
    (on.stage = [] ∧ Keyed.find (on.arb 0).holder (arbBank 0 3) = none ∧ (on.arb 0).suspended = []
      ∧ ((arbOf 0 { seen := [(3, [10, 3])] }).arb 0).holder = [] ∧ ((arbOf 0 { seen := [(3, [10, 3])] }).arb 0).suspended = []
      ∧ (Tab.get [] ((arbOf 0 { seen := [(3, [10, 3])] }).arb 0).seen (arbBank 0 3)).filter
          (fun i => !(arbOf 0 { seen := [(3, [10, 3])] }).masked 0 i) = [10, 3]
      ∧ firstFrom (arbSize 0) (Tab.get 0 (on.arb 0).ptr (arbBank 0 3 * 4 + on.topLevel 0 [10, 3]))
          ([10, 3].filter (fun i => on.arbLevel 0 i == on.topLevel 0 [10, 3])) = some 3)
    ∧ (Keyed.find ((arbOf 0 { holder := [(3, ⟨5, 3, 2, true⟩)] }).arb 0).holder (arbBank 0 3) = some ⟨5, 3, 2, true⟩
      ∧ (∀ i ∈ Tab.get [] ((arbOf 0 { holder := [(3, ⟨5, 3, 2, true⟩)] }).arb 0).seen 3, on.arbLevel 0 i ≤ on.arbLevel 0 5)
      ∧ Keyed.find ((arbOf 0 { holder := [(3, ⟨5, 3, 63, false⟩)] }).arb 0).holder (arbBank 0 3) = some ⟨5, 3, 63, false⟩
      ∧ ((arbOf 0 { holder := [(3, ⟨5, 3, 63, false⟩)] }).arb 0).holdLimit ≤ 63 + 1)
    ∧ (Keyed.find ((holds 2 3 on).arb 2).holder 0 = some ⟨3, 1, 0, false⟩
      ∧ 3 ∈ Tab.get [] (({ on with arbs := [(2, { holder := [(0, ⟨3, 1, 0, false⟩)], seen := [(0, [3])] })] } : State).arb 2).seen 0
      ∧ (holds 2 3 on).masked 2 3 = false
      ∧ ({ on with pci := { queue := [waitingWrite] } } : State).nextHost 3 = some waitingWrite
      ∧ waitingWrite.body = .write 0x1000 [1, 2] none)
    ∧ (((arbOf 0 { reqs := [(5, { starving with cutDue := true })] }).arb 0).reqs.find? (·.2.cutDue)
        = some (5, { starving with cutDue := true })
      ∧ (on.arb 0).reqs.find? (·.2.cutDue) = none)
    ∧ (arbHas 0 10 = true ∧ on.responds .arb = true
      ∧ ((arbOf 0 { reqs := [(10, { starving with cut := true })] }).arbReq 0 10).cut = true)
    ∧ (((arbOf 0 { reqs := [(10, starving)] }).arbReq 0 10).starvedTold = false
      ∧ (∃ w ∈ ((arbOf 0 { reqs := [(10, starving)] }).arbReq 0 10).waits, ((arbOf 0 { reqs := [(10, starving)] }).arb 0).starveLimit ≤ w.2)
      ∧ ((arbOf 0 { reqs := [(10, { starving with starvedTold := true })] }).arbReq 0 10).starvedTold = true)
    ∧ on.responds .dma = true := by decide

/-- Crew 1 with receive port 0 as given, on bulk IN context 2. -/
def ported (p : Rxp) (l : List (Nat × Xfer)) : State :=
  { lined { ctxIn with kind := 3, alm := {} } { state := .running } with
    crews := [(0, { bme := true }), (1, { st := .running, bme := true, rxps := [(0, p)] })], xfers := l }
def port0 (st : RxpState) : Rxp := { ctx := 2, window := 8, threshold := 1, state := st, xfer := if st = .closed then none else some 6 }
def standing : Xfer := { bulkOf .bulkIn [] with origin := .port 1 0, queue := true }
theorem witness_ReceivePortsPopAndClose :
    ((ported (port0 .closed) []).stage = [] ∧ (ported (port0 .closed) []).portAccess 1 = true
      ∧ ((ported (port0 .closed) []).rxp 1 0).state = .closed ∧ (ported (port0 .closed) []).openReason 1 0 = poOk
      ∧ (ported {} []).openReason 1 0 ≠ poOk ∧ ((ported {} []).rxp 1 0).state = .closed)
    ∧ (((ported (port0 .open) [(6, standing)]).rxp 1 0).state ≠ .closed ∧ ((ported (port0 .open) [(6, standing)]).rxp 1 0).items = []
      ∧ (ported (port0 .open) [(6, standing)]).canPop 1 0 = false
      ∧ (ported { port0 .open with items := [{ data := [1, 2, 3, 4, 5], len := 5 }] } [(6, standing)]).canPop 1 0 = true
      ∧ (ported { port0 .open with items := [{ data := [1, 2, 3, 4, 5], len := 5 }], word := 1 } [(6, standing)]).canPop 1 0 = true
      ∧ (holds 0 9 (ported (port0 .open) [(6, standing)])).masked 0 11 = false
      ∧ (ported { port0 .open with waitPops := 1 } []).portAccess 1 = true
      ∧ ((ported { port0 .open with items := [{ data := [1, 2, 3, 4, 5], len := 5 }] } [(6, standing)]).rxp 1 0).items
          = [{ data := [1, 2, 3, 4, 5], len := 5 }] ∧ 4 * (0 + 1) < 5 ∧ 5 ≤ 4 * (1 + 1))
    ∧ 0 < ((ported { port0 .open with waitPops := 1 } [(6, standing)]).rxp 1 0).waitPops
    ∧ (((ported (port0 .open) [(6, standing)]).rxp 1 0).xfer = some 6 ∧ (ported (port0 .open) [(6, standing)]).xfer 6 = some standing
      ∧ (ported (port0 .open) [(6, standing)]).inSlot 6 standing.trunk = false
      ∧ ({ ported (port0 .open) [(6, standing)] with trks := [(0, { slots := [bulkTxn (.tokenB 0 2) 0] })] } : State).inSlot 6 standing.trunk = true)
    ∧ (1 ≤ 8 ∧ 8 < 8192 ∧ 8 ≤ (port0 .open).window) := by decide
theorem witness_ReceivePortsPopAndClose_context : Keyed.lowestFree (ported (port0 .closed) []).xfers 4096 0 = some 0 := rfl

def timed (f : Tim → Tim) : State := { on with tim := f on.tim }
def lockedTo (th : Int) : State := timed (fun m => { m with state := .locked, source := 1, valid1 := true, ppsTheta := some th })
def stepping : State := timed (fun m => { m with state := .locked, source := 1, valid1 := true, step := some (-60000) })
theorem witness_SecondsDriveTheLoop :
    ((timed (fun m => { m with running := false })).stage = [] ∧ (timed (fun m => { m with running := false })).tim.running = false)
    ∧ ((lockedTo 49999).tim.running = true ∧ (lockedTo 49999).tim.ns ≤ (lockedTo 49999).tim.nextSecond * nsPerSecond
      ∧ (lockedTo 49999).tim.select = 1 ∧ (lockedTo 49999).tim.valid2 = (lockedTo 49999).partnerOk
      ∧ (lockedTo 49999).tim.step = none ∧ (49999 : Int).natAbs < 50000 ∧ 50000 ≤ (-50000 : Int).natAbs
      ∧ (lockedTo 50000).tim.allowBack = false ∧ (lockedTo 50000).tim.ppsTheta = some 50000)
    ∧ (stepping.tim.select = stepping.tim.source ∧ stepping.tim.source ≠ 0 ∧ stepping.tim.valid2 = stepping.partnerOk
      ∧ stepping.tim.step = some (-60000) ∧ stepping.tim.state ≠ .unset)
    ∧ ((timed (fun m => { m with setWait := true })).tim.state = .unset ∧ (timed (fun m => { m with setWait := true })).tim.setWait = true
      ∧ (timed (fun m => { m with setWait := true })).tim.valid2 = (timed (fun m => { m with setWait := true })).partnerOk
      ∧ on.tim.ns ≤ on.tim.nextSecond * nsPerSecond) := by decide

/-- LOCKED to REFPPS, `ns` nanoseconds after power-on; the manager's sample, if any, of time 0. -/
def aged (ns : Nat) (f : Tim → Tim) : State :=
  timed (fun m => f { m with state := .locked, source := 1, valid1 := true, ns := ns, elapsed := ns, nextBoundary := ns })
def pulsing (f : Tim → Tim) : State :=
  timed (fun m => f { m with pulseStart := true, pulseFirst := 5, ns := 5000000000, elapsed := 5000000000, nextBoundary := 5000000000 })
theorem witness_TimeReferencesPulsesAndReads :
    ((timed (fun m => { m with ppsLast := some 0 })).stage = [] ∧ on.tim.running = true
      ∧ (timed (fun m => { m with ppsLast := some 0 })).tim.ppsLast = some 0 ∧ (timed (fun m => { m with ppsLast := some 0 })).tim.ppsBad < 2
      ∧ 2 ≤ (timed (fun m => { m with ppsBad := 2 })).tim.ppsBad)
    ∧ ((aged 1500000000 id).tim.valid1 = true ∧ (aged 1500000000 id).tim.valid3 = false ∧ (aged 1500000000 id).partnerOk = false
      ∧ (aged 1500000000 id).tim.state = .locked ∧ (aged 4000000000 (fun m => { m with valid1 := false, valid3 := true })).tim.valid3 = true
      ∧ (aged 4000000000 (fun m => { m with valid1 := false, valid3 := true })).partnerOk = false)
    ∧ ((timed (fun m => { m with state := .vigil, ns := 300000000000 })).tim.state = .vigil
      ∧ 0 + max 1 on.tim.vigilLimit * nsPerSecond ≤ max 300000000000 on.tim.nextBoundary
      ∧ max 299000000000 on.tim.nextBoundary < 0 + max 1 on.tim.vigilLimit * nsPerSecond)
    ∧ (on.responds .tim = true ∧ on.tim.state = .unset ∧ (lockedTo 0).tim.state ≠ .unset)
    ∧ (on.tim.pulseStart = false ∧ (pulsing id).pulseSecond = 5 ∧ (pulsing id).tim.pulseStart = true ∧ (pulsing id).tim.pulseFirst ≤ 5
      ∧ (pulsing id).tim.pulseHigh = false ∧ (pulsing id).tim.pulseDone ≠ some 5 ∧ (pulsing id).pulseAt 5 = 5000000000
      ∧ (pulsing id).tim.ns ≤ (pulsing id).pulseAt 5 + 10 ∧ (pulsing (fun m => { m with pulseDone := some 5 })).tim.pulseDone = some 5
      ∧ (pulsing (fun m => { m with pulseLast := some 4500000001 })).tim.pulseLast = some 4500000001
      ∧ (5000000000 : Nat) < 4500000001 + 500000000
      ∧ (pulsing (fun m => { m with pulseHigh := true })).tim.pulseHigh = true) := by decide
/-- R411: 1 s is 2.4 million cycles of the root PLL; the validity of a source runs out at 1.5 s and at 4 s, no earlier; the
pulse's instants are reached. -/
theorem witness_TimeReferencesPulsesAndReads_instants :
    (stampNs (2400000000 - 0) = 1000000000 ∧ ¬ 1001000000 < stampNs 2402400000 ∧ 1001000000 < stampNs 2402400001)
    ∧ ((aged 1500000000 id).tim.elapsedTo (0 + 1500000000)).isSome = true ∧ (aged 1499999999 id).tim.elapsedTo (0 + 1500000000) = none
    ∧ ((aged 4000000000 (fun m => { m with valid1 := false, valid3 := true })).tim.elapsedTo (0 + 4000000000)).isSome = true
    ∧ ((pulsing id).tim.upTo 5000000000).isSome = true
    ∧ ((pulsing (fun m => { m with pulseHigh := true, pulseLast := some 4999900000 })).tim.elapsedTo (4999900000 + 100000)).isSome = true
    ∧ (pulsing (fun m => { m with pulseHigh := true, pulseLast := some 4999900001 })).tim.elapsedTo (4999900001 + 100000) = none := by
  decide +kernel

/-- The pair on, this unit STERN, with the tandem fields given. -/
def tdmOf (f : Tdm → Tdm) : State := { on with tdm := f { enable := true, maskRx := 3, maskTx := 3 } }
def block : PairBlock := { bow := true, bp := 1, rev := 0xA0, digest := [], epoch := 4, epochValid := true,
                           hops := List.replicate 8 0, mask := 3, pair := 2, active := true }
theorem witness_PairLinkAndHeartbeat :
    (on.stage = [] ∧ on.responds .tdm = true ∧ on.tdm.enable = false ∧ (tdmOf id).tdm.enable = true)
    ∧ ((tdmOf id).tdm.maskRx / 2 ^ 3 % 2 = 0 ∧ (tdmOf id).tdm.maskRx / 2 ^ 1 % 2 = 1)
    ∧ ((tdmOf id).frame % 1000 = 0 ∧ ({ tdmOf id with frame := 1 } : State).frame % 1000 ≠ 0 ∧ on.tdm.maskRx = 0)
    ∧ ((tdmOf id).tdm.hbGot = false ∧ (tdmOf id).tdm.hbRun = 0 ∧ (tdmOf id).tdm.hbRun < 3 ∧ (tdmOf id).pins.vddio33Ok = true)
    ∧ (3 ≤ (tdmOf (fun d => { d with hbRun := 3 })).tdm.hbRun ∧ (tdmOf (fun d => { d with hbRun := 3 })).tdm.lost = false
      ∧ (tdmOf (fun d => { d with hbRun := 3 })).tdm.active = false ∧ (tdmOf (fun d => { d with hbRun := 3 })).tdm.fenceIn = false
      ∧ (tdmOf (fun d => { d with hbRun := 3 })).tdm.mirroredAtHb = false
      ∧ (tdmOf (fun d => { d with hbRun := 3, mirroredAtHb := true })).tdm.mirroredAtHb = true)
    ∧ (on.tdm.maskRx = 0 ∧ (tdmOf id).tdm.maskRx ≠ 0 ∧ block.mask % 16 ≠ 0 ∧ block.bow ≠ on.straps.role ∧ block.bp = on.bpApplied
      ∧ block.digest = on.structDigest) := by decide

def lineEnt : CatchEntry := .line 7 1 0 0 0 false false true false 0 0
def closeOf (f : Nat) : CatchClose := ⟨f, 4, false, false, 1, recordCrc [lineEnt]⟩
def standby : State := tdmOf (fun d => { d with pair := .mirrored, rxFrame := some 65535, rxEntries := [lineEnt], rxNums := [4095] })
def keptRec (f : Nat) : CatchRec := ⟨f, [lineEnt], closeOf f⟩
def keeping : State :=
  tdmOf (fun d => { d with active := true, pair := .mirrored, kept := [keptRec 8, keptRec 9], isMatch := true, partner := some block })
theorem witness_CatchRecordsAreAcknowledged :
    (standby.stage = [] ∧ standby.tdm.active = false ∧ standby.tdm.pair = .mirrored ∧ standby.tdm.rxFrame = some 65535
      ∧ (on.tdm.pair ≠ .joining ∧ on.tdm.pair ≠ .mirrored ∧ on.tdm.active = false))
    ∧ ((closeOf 0).frame = (65535 + 1) % 65536 ∧ (closeOf 0).count = standby.tdm.rxEntries.length
      ∧ standby.tdm.rxNums = [4095] ∧ (∀ x ∈ [4095], blkAfter 0 x = true) ∧ (∀ x ∈ [4095], blkAfter 4094 x = false)
      ∧ standby.tdm.enable = true
      ∧ (closeOf 0).crc = recordCrc standby.tdm.rxEntries ∧ (closeOf 0).full = false
      ∧ ({ closeOf 0 with count := 2 } : CatchClose).count ≠ standby.tdm.rxEntries.length ∧ (closeOf 1).frame ≠ (65535 + 1) % 65536)
    ∧ (keeping.stage = [] ∧ keeping.tdm.kept = keptRec 8 :: [keptRec 9] ∧ keeping.tdm.active = true ∧ (keptRec 8).frame < 65536
      ∧ keeping.tdm.enable = true ∧ keeping.tdm.maskRx ≠ 0 ∧ keeping.tdm.maskTx ≠ 0 ∧ keeping.tdm.isMatch = true
      ∧ keeping.tdm.partner.isSome = true ∧ keeping.tdm.pair = .mirrored ∧ keeping.tdm.fit = true ∧ 9 % 65536 ≠ (keptRec 8).frame)
    ∧ (tdmOf id).tdm.enable = true := by decide +kernel

def bow : State := { keeping with straps := { keeping.straps with role := true } }
def claimant (t : Trk) : State := { trkOf 7 t with tdm := { enable := true } }
def splitTrk : Trk := { state := .running, mode := .split, splitAt := 0, healClean := 7 }
def req7 : RelayReq := ⟨7, 3, false, .hopReq 0, 5, 0, 1, false, 0⟩
def res7 : RelayRes := ⟨7, 3, 0, 0, 0, false, [], true⟩
def relayed : Trk := { state := .running, mode := .split, relayed := [{ ask (.hopReq 0) .measure with slot := 3, attempt := 4 }] }
theorem witness_ClaimsSplitsAndHeals :
    (keeping.responds .tdm = true ∧ keeping.tdm.active = true ∧ keeping.tdm.fenced = false ∧ keeping.tdm.pair = .mirrored
      ∧ (∀ n ∈ keeping.pairTrunks, (keeping.trk n).mode = .whole ∧ keeping.saturatedSeg n = none) ∧ on.tdm.active = false
      ∧ on.tdm.paired = false ∧ (tdmOf (fun d => { d with refused := true })).tdm.refused = true ∧ on.tdm.epochValid = false ∧ (tdmOf (fun d => { d with epochValid := true })).tdm.epochValid = true
      ∧ on.tdm.fenceIn = false)
    ∧ (bow.straps.role = true ∧ bow.tdm.fenceOut = false ∧ bow.tdm.active = true ∧ on.straps.role = false ∧ on.pairFed 7 = true)
    ∧ (((claimant { claiming := true, claimTries := 3 }).trk 7).claiming = true
      ∧ ((claimant { claiming := true, claimTries := 3 }).trk 7).slots.all (fun x => x.purpose != .claimConfirm) = true
      ∧ ((claimant { claiming := true, claimTries := 3 }).trk 7).quarantined = false ∧ (on.trk 7).claiming = false)
    ∧ ((claimant splitTrk).isPartner 7 = true ∧ ((claimant splitTrk).trk 7).relays.length < 16 ∧ req7.trunk = 7 ∧ on.isPartner 7 = false)
    ∧ (on.relayedTxn res7 = none
      ∧ (claimant relayed).relayedTxn res7 = some { ask (.hopReq 0) .measure with slot := 3, attempt := 4 } ∧ res7.id < 16 ∧ res7.ptype = 0)
    ∧ (({ claimant splitTrk with frame := 128 } : State).isPartner 7 = true
      ∧ (({ claimant splitTrk with frame := 128 } : State).trk 7).splitAt < 128 ∧ (128 - splitTrk.splitAt) % 128 = 0 ∧ 7 ≤ splitTrk.healClean)
    ∧ (({ claimant splitTrk with tdm := { active := true } } : State).trk 7).mode = .split ∧ (on.trk 7).mode ≠ .split := by decide

def seenGood : ProbeSeen := ⟨true, true, false⟩
def quar (c : Nat) : State := { trkOf 0 { state := .fault, quarantined := true, clean := c } with frame := 128 }
def pruned (c : Nat) : State :=
  { hubbed 0 { state := .running, hubs := [(1, { pruned := true, clean := c })] } with frame := 128 }
def urgentX (h : Nat) : Xfer := { item1 with ctx := some 2, addr := 9, ep := 1, hub := 1, urgent := true, hold := h }
/-- The urgent transfer's node hangs on hub 1, which a locate walk holds back. -/
def cutOff (h : Nat) : State :=
  { lined { ctxIn with kind := 2 } { state := .running, unreach := 1 } with xfers := [(6, urgentX h)] }
theorem witness_ProbesReadmissionAndUrgentLimit :
    (on.stage = [] ∧ (on.trk 0).quarantined = false ∧ ((quar 0).trk 0).quarantined = true
      ∧ (quar 0).probeFrame ((quar 0).trk 0).quarAt = true ∧ ((quar 7).trk 0).clean < 8 ∧ 8 ≤ ((quar 8).trk 0).clean)
    ∧ (((on.trk 0).hub 1).pruned = false ∧ (((pruned 0).trk 0).hub 1).pruned = true ∧ ((pruned 0).trk 0).quarantined = false
      ∧ (pruned 0).probeFrame (((pruned 0).trk 0).hub 1).prunedAt = true ∧ 8 ≤ (((pruned 8).trk 0).hub 1).clean)
    ∧ ((cutOff 4).xfer 6 = some (urgentX 4) ∧ (urgentX 4).urgent = true ∧ (urgentX 4).ended = false ∧ (urgentX 4).origin = .ring 1 0 0
      ∧ ((cutOff 4).targetOf (urgentX 4)).1.cut = true ∧ max 1 ((cutOff 4).trk 0).urgentHold.inForce ≤ (urgentX 4).hold
      ∧ (urgentX 3).hold < max 1 ((cutOff 3).trk 0).urgentHold.inForce) := by decide

def evRing (e : EvRing) (v : Vec) : State := { on with crews := [(0, { bme := true, evt := e, vecs := [(0, v)] })] }
def ring4 : EvRing := { sizeLog2 := 4, enabled := true }
def event0 : Event := ⟨.lineStarted, 0, 0, 0⟩
theorem witness_EventRingsAndVectors :
    (on.stage = [] ∧ on.evtOk 0 = true ∧ ((evRing ring4 {}).crew 0).evt.enabled = true ∧ ((evRing {} {}).crew 0).evt.enabled = false
      ∧ ({ sizeLog2 := 4 } : EvRing).sizeOk = true ∧ ({} : EvRing).sizeOk = false
      ∧ headOk 16 0 16 4 = true ∧ headOk 17 0 16 4 = false)
    ∧ (((evRing { ring4 with queue := [event0], tail := 15 } { masked := false }).crew 0).bme = true
      ∧ ((evRing { ring4 with queue := [event0], tail := 15 } { masked := false }).crew 0).evt.used < 2 ^ 4
      ∧ ((evRing { ring4 with queue := [event0], tail := 15 } { masked := false }).crew 0).evt.queue = event0 :: []
      ∧ (((evRing { ring4 with queue := [event0] } { masked := false }).crew 0).vec 0).masked = false
      ∧ (((evRing { ring4 with queue := [event0] } { masked := false }).crew 0).vec 0).holdEnd = none
      ∧ (evRing { ring4 with queue := [event0] } { masked := false }).granted 2 33 = false
      ∧ (holds 2 33 (evRing { ring4 with queue := [event0] } { masked := false })).granted 2 33 = true)
    ∧ ((((evRing ring4 { masked := false, holdEnd := some 0, causes := 1 }).crew 0).vec 0).causes = 1
      ∧ ((((evRing ring4 { masked := false, holdEnd := some 0, causes := 1 }).crew 0).vec 0).holdEnd.bind
          (evRing ring4 { masked := false, holdEnd := some 0, causes := 1 }).tim.upTo).isSome = true
      ∧ (((evRing ring4 { pba := true }).crew 0).vec 0).pba = true ∧ on.pci.hasMessage 0 0 = false
      ∧ ((on.crew 0).vec 31).holdEnd.bind on.tim.upTo = none
      ∧ (some 1000001).bind on.tim.upTo = none) := by decide +kernel

theorem witness_RegisterWritesFollowTheirClass :
    (([⟨0, 0xF#4, true⟩] : List WriteWord).any (·.poisoned) = true
      ∧ ([⟨0, 0xE#4, false⟩] : List WriteWord).any (·.poisoned) = false ∧ 0x140002 % 4 ≠ 0
      ∧ ([⟨0, 0xE#4, false⟩] : List WriteWord).all (fun w => w.enables != 0xF#4) = true)
    ∧ 0x140000 % 4 = 0
    ∧ (on.stage = [] ∧ on.responds .rng = true ∧ on.crewRuns 0 = true ∧ (on.ring 0 0).state = .disabled
      ∧ (({ on with crews := [(0, { rings := [(0, { state := .running })] })] } : State).ring 0 0).state ≠ .disabled
      ∧ setLo (0 : Addr) 64 ≠ 0)
    ∧ (on.responds .cox = true ∧ on.responds .clkPwr = true ∧ on.responds .tim = true) := by decide

theorem witness_AnIdleStepIsOneClockCycle :
    on.pending = [] ∧ on.tim.running = true ∧ on.tim.rate = 0 ∧ (timed (fun m => { m with running := false })).tim.running = false
    ∧ (timed (fun m => { m with rate := -200000 })).tim.rate = ((-200000 : Int) : Rat) := ⟨rfl, rfl, rfl, rfl, rfl⟩
theorem witness_FuseShadowAndRollbackInvariant : shadowMirrors State.reset ∧ shadowMirrors por :=
  ⟨fun _ => rfl, fun h => absurd rfl h⟩
theorem witness_FoundationsMoveOnlyOnTheirEvents : movesFoundations .fetchTurn = false ∧ movesFoundations (.rxpPop 0 0) = false :=
  ⟨rfl, rfl⟩

/-! ### Ill-formed commands: one for each check of WellFormed -/

def longPkt : RxPkt := { hdr := 0, crc8 := 0, payload := List.replicate 512 0, crc32 := 0, framing := false }
def okBlock : PairBlock := { block with digest := List.replicate 32 0 }
def okRelay : RelayReq := ⟨7, 3, false, .hopReq 0, 5, 0, 1, false, 0⟩
def okEp : CatchEntry := .epState 7 9 1 false false false 0 0 0 0 false [] 0

theorem wf_refuses_operands_out_of_range :
    ([.configRequest 0 (.read 4096), .configRequest 0 (.read 2), .configRequest 0 (.setNumVfs 65536),
      .configRequest 0 (.setMaxPayload 64), .configRequest 0 (.setMaxRead 8192), .configRequest 0 (.setCplTimeout 16),
      .monitorSample 0 [], .rosAdopt 16, .rosAcceptNew 16, .rosReject 16, .rosDelete 4096, .rosSuspend 0 65 16,
      .rosSuspend 0 1 0, .rosResume 0 1 17, .rosResume 0 0 3, .rosResetPort 0 0 16, .almAdd 0 16 0, .almAdd 0 0 256,
      .mbxUpDb 1 32 0, .mbxUpDb 1 0 256, .mbxDnDb 1 32 0, .mbxDnDb 1 0 256, .mbxUpAck 1 256, .mbxDnAck 1 256]
      : List Instr).all (fun c => c.wf == false) = true := by decide

theorem wf_refuses_packets_and_requests_out_of_range :
    ([.rxDataP 0 31 longPkt, .hubEventSample 0 31 longPkt, .rxDataB 0 0 longPkt true, .rxAck 0 0 longPkt, .rxNak 0 0 longPkt,
      .rxStall 0 0 longPkt, .rxBurstAck 0 0 longPkt, .rxHopRsp 0 0 longPkt 0, .rxClaim 0 0 longPkt,
      .arbDecision 0 0 [12] ⟨false, false⟩, .arbDecision 1 0 [3, 3] ⟨false, false⟩, .arbStarved 1 32, .arbCutClear 2 35, .arbGrantsRead 0 12,
      .rxpThresholdWrite 1 0 8192, .lineProbe 0 65 seenGood, .readmission 0 65, .registerWrite 0 0 0x400000 [⟨0, 0xF#4, false⟩],
      .registerWrite 0 0 0 [], .parkedPortSof 7 128 0, .parkedPortSof 7 0 256, .parkedPortLrate 7 4]
      : List Instr).all (fun c => c.wf == false) = true := by decide +kernel
theorem wf_refuses_a_completion_too_long : (Instr.readCompletion 0 (.data (List.replicate 4097 0))).wf = false := by decide +kernel
theorem wf_refuses_a_write_too_long :
    (Instr.registerWrite 0 0 0 (List.replicate 1025 ⟨0, 0xF#4, false⟩)).wf = false := by decide +kernel

/-- A good block, its channel's first. -/
def g : RxBlk := .good 0
theorem wf_refuses_tandem_blocks_out_of_range :
    ([.hbInEdge 1000, .rxHeartbeatBlock g ⟨65536, true⟩ 500, .rxHeartbeatBlock g ⟨0, true⟩ 1000, .rxCatchAck ⟨g, 65536⟩, .rxCatchNak ⟨g, 65536⟩,
      .rxPairBlock ⟨g, { okBlock with bp := 256 }⟩, .rxPairBlock ⟨g, { okBlock with rev := 256 }⟩, .rxPairBlock ⟨g, { okBlock with digest := [] }⟩,
      .rxPairBlock ⟨g, { okBlock with epoch := 256 }⟩, .rxPairBlock ⟨g, { okBlock with hops := [] }⟩,
      .rxPairBlock ⟨g, { okBlock with hops := List.replicate 8 128 }⟩, .rxPairBlock ⟨g, { okBlock with mask := 16 }⟩,
      .rxPairBlock ⟨g, { okBlock with pair := 8 }⟩, .rxCatchClose ⟨g, { closeOf 0 with frame := 65536 }⟩,
      .rxCatchClose ⟨g, { closeOf 0 with epoch := 256 }⟩, .rxCatchClose ⟨g, { closeOf 0 with count := 4294967296 }⟩,
      .rxRelayRequest ⟨g, { okRelay with kind := .hopReq 256 }⟩, .rxRelayRequest ⟨g, { okRelay with addr := 512 }⟩,
      .rxRelayRequest ⟨g, { okRelay with ep := 8 }⟩, .rxRelayRequest ⟨g, { okRelay with hub := 65 }⟩,
      .rxRelayRequest ⟨g, { okRelay with longest := 257 }⟩, .rxRelayResult ⟨g, { res7 with ptype := 16 }⟩, .rxRelayResult ⟨g, { res7 with sq := 16 }⟩,
      .rxRelayResult ⟨g, { res7 with aux := 256 }⟩, .rxRelayResult ⟨g, { res7 with payload := List.replicate 257 0 }⟩,
      .rxTimeBlock g (.answer 0 0 0 0) 4 0, .rxTimeBlock g (.answer 0 0 0 0) 0 4]
      : List Instr).all (fun c => c.wf == false) = true := by decide +kernel

theorem wf_refuses_catch_entries_out_of_range :
    ([.epState 8 9 1 false false false 0 0 0 0 false [] 0, .epState 7 512 1 false false false 0 0 0 0 false [] 0,
      .epState 7 9 8 false false false 0 0 0 0 false [] 0, .epState 7 9 1 false false false 16 0 0 0 false [] 0,
      .epState 7 9 1 false false false 0 16 0 0 false [] 0, .epState 7 9 1 false false false 0 0 16 0 false [] 0,
      .epState 7 9 1 false false false 0 0 0 16 false [] 0, .epState 7 9 1 false false false 0 0 0 0 false [1] 0,
      .epState 7 9 1 false false false 0 0 0 0 false [] 256, .allow 7 9 8 0 0 false false 0 none [],
      .allow 7 9 1 16 0 false false 0 none [], .allow 7 9 1 0 16 false false 0 none [], .allow 7 9 1 0 0 false false 256 none [],
      .allow 7 9 1 0 0 false false 0 none (List.replicate 257 0), .xfer 64 0 0 0 0 0, .xfer 0 8 0 0 0 0, .xfer 0 0 65536 0 0 0,
      .node 8 0 (List.replicate 64 0), .node 7 0 [], .line 8 0 0 0 0 false false false false 0 0,
      .line 7 65 0 0 0 false false false false 0 0, .line 7 0 256 0 0 false false false false 0 0,
      .line 7 0 0 256 0 false false false false 0 0, .line 7 0 0 0 256 false false false false 0 0,
      .line 7 0 0 0 0 false false false false 256 0, .line 7 0 0 0 0 false false false false 0 4,
      .alm 7 9 8 true (List.replicate 16 0), .alm 7 9 1 true []]
      : List CatchEntry).all (fun e => e.wf == false && (Instr.rxCatchEntry ⟨g, e⟩).wf == false) = true := by decide +kernel

theorem wf_refuses_transactions_out_of_range :
    ([.tokenB 16 1, .tokenB 0 0, .tokenB 0 9, .dataP false (List.replicate 257 0), .dataB [], .dataB (List.replicate 9 (0, false, [])),
      .dataB [(16, false, [])], .dataB [(0, false, List.replicate 257 0)], .setup 16 (List.replicate 8 0), .setup 0 [],
      .hopReq 256, .bcast 256 [], .bcast 0 (List.replicate 257 0), .claim 256 0, .claim 0 256]
      : List TxnKind).all (fun k => k.wf == false) = true := by decide +kernel

theorem wf_accepts_the_ends_of_the_ranges :
    ([.configRequest 0 (.read 4092), .configRequest 0 (.setNumVfs 65535), .configRequest 0 (.setMaxPayload 4096), .rosAdopt 15,
      .rosDelete 4095, .rosSuspend 0 0 16, .rosResetPort 7 64 16, .almAdd 0 15 255, .mbxUpDb 1 31 255, .arbDecision 2 0 [34, 0] ⟨true, false⟩,
      .rxpThresholdWrite 1 0 8191, .lineProbe 0 64 seenGood, .rxPairBlock ⟨g, okBlock⟩, .rxCatchEntry ⟨g, okEp⟩, .rxRelayRequest ⟨g, okRelay⟩,
      .rxRelayResult ⟨g, res7⟩, .parkedPortLrate 7 3, .registerWrite 63 2 0x3FFFFC [⟨0, 0xF#4, false⟩]]
      : List Instr).all (·.wf) = true := by decide

/-! ### Small tests of single commands; expected values from the rule or the worked case named -/

/-- The state a command leaves. -/
def after (c : Instr) (s : State) : State :=
  match exec c s with | .next t => t | _ => s
/-- The events a function's queue and backlog hold. -/
def heard (fn : Nat) (s : State) : List (EventName × Nat) := ((s.crew fn).evt.queue ++ (s.crew fn).evt.backlog).map (fun e => (e.name, e.detail))

/-- R151: the check value of the CRC-8; the IEEE 802.3 check value. -/
theorem test_crc_check_values :
    crc8 [0x31, 0x32, 0x33, 0x34, 0x35, 0x36, 0x37, 0x38, 0x39] = 0xF4
    ∧ crc32 [0x31, 0x32, 0x33, 0x34, 0x35, 0x36, 0x37, 0x38, 0x39] = 0xCBF43926 := by decide +kernel

/-- R144 and IEEE 802.3 Clause 36: the groups of K28.5, D21.5, D0.0 and D17.7 at each disparity, bit a first. -/
theorem test_code_groups :
    group false (.ctrl .k28_5) = (0b0011111010, true) ∧ group true (.ctrl .k28_5) = (0b1100000101, false)
    ∧ group false d21_5 = (0b1010101010, false) ∧ group true d21_5 = (0b1010101010, true)
    ∧ byteGroup false 0 = (0b1001110100, false) ∧ byteGroup true 0 = (0b0110001011, true)
    ∧ byteGroup false 0xF1 = (0b1000110111, true) ∧ byteGroup true 0xF1 = (0b1000110001, false) := by decide +kernel
/-- R148, R150: an ACK's six characters are read back from their groups; a wrong disparity spoils them. -/
theorem test_ack_through_the_line :
    pktError (rxPacket (readGroups false ((groups false (pktLine (linePkt (hdrBytes (mkHdr ptAck false false false 0 9 1 0 0)) []))).tail)))
      = none
    ∧ pktError (rxPacket (readGroups true ((groups false (pktLine (linePkt (hdrBytes (mkHdr ptAck false false false 0 9 1 0 0)) []))).tail)))
      ≠ none := by decide +kernel
/-- R437: a block is 40 characters, its number above its channel. -/
theorem test_block_of_forty_characters :
    (blkLine 2 0xABC (List.replicate 32 7)).length = 40 ∧ (blkLine 2 0xABC (List.replicate 32 7)).take 3
      = [.ctrl .k27_7, .data 0xC2, .data 0xAB] := by decide +kernel
/-- R521: from reset, two data-scan edges capture the identification code; it leaves bit 0 first. -/
def tms (l : List Bool) : State := l.foldl (fun s b => jtagClock false b false s) on
theorem test_jtag_reads_the_idcode :
    (tms [false, true, false, false]).jtag.tap = .shiftDr ∧ (tms [false, true, false, false]).jtag.tdo = some true
    ∧ (tms [false, true, false, false]).jtag.bits.take 12 = [true, true, true, true, false, true, true, false, true, true, false, true] := by
  decide +kernel

/-- FIPS 180's example "abc"; RFC 6979's P-256 example with the message "sample", and a changed message. -/
theorem test_sha256_and_ecdsa :
    sha256 [0x61, 0x62, 0x63] = octets 32 0xBA7816BF8F01CFEA414140DE5DAE2223B00361A396177A9CB410FF61F20015AD
    ∧ ecdsaVerify ownerKey (sha256 [0x73, 0x61, 0x6D, 0x70, 0x6C, 0x65])
        (octets 32 0xEFD48B2AACB6A8FD1140DD9CD45E81D69D2C877B56AAF991C34D0EA84EAF3716
          ++ octets 32 0xF7CB1C942D657C41D436C7A1B6E29F65F3E900DBB9AFF4064DC4AB2F843ACDA8) = true
    ∧ ecdsaVerify ownerKey (sha256 [0x73])
        (octets 32 0xEFD48B2AACB6A8FD1140DD9CD45E81D69D2C877B56AAF991C34D0EA84EAF3716
          ++ octets 32 0xF7CB1C942D657C41D436C7A1B6E29F65F3E900DBB9AFF4064DC4AB2F843ACDA8) = false := by decide +kernel

/-- Table 7.6: d, e, B and cost of the entries M, P1, P2 and P3, d_tx 160 ns. -/
theorem test_costs_of_the_worked_frame :
    quantities 0 160 64 5 (.tokenP false) = ⟨18, 124, 374, 250⟩ ∧ quantities 0 160 8 12 (.tokenP false) = ⟨18, 285, 486, 201⟩
    ∧ quantities 0 160 8 13 (.tokenP false) = ⟨18, 308, 518, 210⟩
    ∧ quantities 0 160 16 40 (.dataP false (List.replicate 16 0)) = ⟨58, 969, 1398, 429⟩ := by decide

/-- R130 (its worked case): fused −37 and a user value of 600 saturate at 511; 40 afterwards gives 3, the bit stays. -/
def warmed : State := { on with fuse := { factory := [(0, -37)] }, shadow := { factory := [(0, -37)] } }
theorem test_calibration_saturates :
    (after (.calUserWrite 0 600) warmed).calEff 0 = 511 ∧ (after (.calUserWrite 0 600) warmed).cal.sat = 1
    ∧ heard 0 (after (.calUserWrite 0 600) warmed) = [(.calSaturated, 1)]
    ∧ (after (.calUserWrite 0 40) (after (.calUserWrite 0 600) warmed)).calEff 0 = 3
    ∧ (after (.calUserWrite 0 40) (after (.calUserWrite 0 600) warmed)).cal.sat = 1 := by decide +kernel

/-- R348 (its worked case): a 48-byte sample that wraps takes writes of 32 and 16 bytes; the cursor moves by 48. -/
theorem test_circular_buffer_wraps :
    circWrites 0x0000004180000000 12 0x00012FE0 256 (List.replicate 48 7)
      = [(0x0000004180000FE0, List.replicate 32 7), (0x0000004180000000, List.replicate 16 7)]
    ∧ (0x00012FE0 : Word) + cursorStep 48 = 0x00013010 := by decide +kernel

/-- Table 12.5: from pointer 7 channel 12 wins before channel 5, with its burst of 2. -/
def dmaPath : Arb := { ptr := [(1, 7)], seen := [(0, [5, 12])], reqs := [(12, { level := 1, burst := 2 })] }
theorem test_rotation_from_the_pointer :
    (Keyed.find ((after (.arbDecision 1 0 [] ⟨false, false⟩) (arbOf 1 dmaPath)).arb 1).holder 0).map (fun t => (t.req, t.left))
      = some (12, 2) := by decide +kernel

/-- The worked case of R509: a class-Q word of a running ring is dropped, with the detail of its place. -/
def crew5 : State := { on with crews := [(0, { bme := true }), (5, { st := .running, bme := true, rings := [(2, ring0 .running 0)] })] }
theorem test_rejected_write_tells_its_place :
    heard 5 (after (.registerWrite 5 0 0x148 [⟨0x00010006, 0xF#4, false⟩])
      { crew5 with pci := { vfEnable := true, numVfs := 8 } }) = [(.cfgReject, 0x05000148)]
    ∧ heard 0 (after (.registerWrite 0 0 0x141448 [⟨0x00010006, 0xF#4, false⟩]) crew5) = [(.cfgReject, 0x00141448)] := by decide

/-- The example of R507: urgent_hold 8 is written at once and in force from the next frame boundary. -/
def holdWritten : State := after (.registerWrite 0 0 0xC0160 [⟨0x0082BC28, 0xF#4, false⟩]) on
theorem test_class_f_waits :
    (holdWritten.trk 3).urgentHold = ⟨8, 4⟩ ∧ wordRead 0 0 0xC0160 holdWritten = 0x0082BC28
    ∧ wordRead 0 0 0xC8160 holdWritten = 0x00400000 ∧ wordRead 0 0 0xC8160 (fieldsBoundary holdWritten) = 0x00800000 := by
  decide +kernel

/-- Tables 16.8 to 16.21: reset values of single registers, each in a state where its block answers. -/
theorem test_reset_words :
    wordRead 0 0 0x10000 State.reset = 0x0F0F0000 ∧ wordRead 0 0 0x30014 (pwrOf id) = 0x06900640
    ∧ wordRead 0 0 0x40008 on = 0x00000008 ∧ wordRead 0 0 0xC0100 on = 0x0042BC28 ∧ wordRead 0 0 0x200000 on = 0x00401000
    ∧ wordRead 0 0 0x240000 on = 0x06020039 ∧ wordRead 0 0 0x240008 on = 0x186A0000 ∧ wordRead 1 0 0 on = 0x00000201
    ∧ wordRead 0 0 0x80100 on = 0x000001FF ∧ wordRead 0 0 0x1C0000 on = 0x00010000 := by decide +kernel

theorem witness_ShadowsShowTheValuesInForce :
    on.stage = [] ∧ on.responds .cal = true ∧ on.responds .ros = true ∧ on.responds .cox = true ∧ on.responds .crw = true
    ∧ on.img.applied = some image ∧ on.responds .epm = true ∧ (1 ≤ 1 ∧ 1 < 64)
    ∧ on.crewRuns 1 = true ∧ ((on.setCtx 0 { used := true, owner := 1 }).ctx (on.crew 1).epmSel).used = true
    ∧ ((on.setCtx 0 { used := true, owner := 1 }).ctx (on.crew 1).epmSel).owner = 1
    ∧ ((0x88000 : Nat) ∈ [0x88000, 0xC8000, 0x1E8004] ∧ (20 < 21 ∧ 0x38244 = 0x38104 + 16 * 20)
      ∧ (7 < 8 ∧ 0xC81E0 = 0xC8100 + 0x20 * 7) ∧ (63 < 64 ∧ 0x1083F8 = 0x108200 + 8 * 63)) ∧ (1 : Fin 64) ≠ 0 := by
  decide +kernel

/-- R162 (its worked case): an ACK of an OUT moves the toggle T from 1 to 0; a NAK leaves it. -/
def outNode : State := polled { ctxIn with kind := 2, t := true } (.dataP true [1])
theorem test_toggle_after_ack :
    ((after (.rxAck 0 31 (pkt (mkHdr ptAck false false false 0 9 1 0 0) [])) outNode).ctx 2).t = false
    ∧ ((after (.rxNak 0 31 (pkt (mkHdr ptNak false false false 0 9 1 0 0) [])) outNode).ctx 2).t = true := by decide +kernel

/-- R316 to R318 (the worked case of chapter 9): after 137 the first record due has index 133 and count 4. -/
def eight : List RingEnt :=
  [⟨false, 130, some (stOk, 512)⟩, ⟨false, 131, some (stOk, 0)⟩, ⟨false, 132, some (stOk, 0)⟩, ⟨false, 133, some (stStall, 0)⟩,
   ⟨false, 134, some (stOk, 0)⟩, ⟨false, 135, some (stShort, 200)⟩, ⟨false, 136, some (stOk, 0)⟩, ⟨true, 137, some (stOk, 9)⟩]
theorem test_records_are_batched :
    ({ state := .running, ents := eight } : Ring).nextRecord = some ⟨4, false, stStall, 0, 133⟩
    ∧ ({ state := .running, ents := eight.drop 4 } : Ring).nextRecord = some ⟨2, false, stShort, 200, 135⟩
    ∧ ({ state := .running, ents := eight.drop 6 } : Ring).nextRecord = some ⟨2, false, stOk, 9, 137⟩
    ∧ ({ state := .running, ents := eight.take 3 } : Ring).nextRecord = none := by decide

/-- R119: a write of 0xA501 resets warm, one of 0xA500 or 1 does nothing. -/
theorem test_reset_key :
    (after (.pwrResetCtrl 0xA501) on).pwr.stage = .waitRelease ∧ (after (.pwrResetCtrl 0xA500) on) = on
    ∧ (after (.pwrResetCtrl 1) on) = on := by decide +kernel

/-- The first command of the queue runs, the rest waits. -/
theorem test_steps_in_order :
    (match step { on with pending := [.rxpPop 1 0, .fetchTurn] } with | .next t => t.pending | _ => []) = [.fetchTurn] := by
  decide +kernel
end Sys2Proof.Tests
end

section
/-! PROOFS. Warm resets (R115, R119, R120): what the cut of an image operation, the calibration set-up and the judging of
the time sources may touch, then what a warm reset leaves, then its four triggers. -/

namespace Sys2Proof.Machine

/-! The parts of a warm reset: each may touch a few fields only. -/

theorem freeBytes_moves_freeCtr (n : Nat) (s : State) : ∃ m, (freeBytes n s).2 = { s with freeCtr := m } := by
  induction n generalizing s with
  | zero => exact ⟨s.freeCtr, rfl⟩
  | succ n ih =>
    obtain ⟨m, hm⟩ := ih { s with freeCtr := s.freeCtr + 1 }
    exact ⟨m, hm⟩

/-- A cut operation may leave its mark in the fuses and their shadow (Table 3.10). -/
theorem imgCut_moves_fuses (s : State) : ∃ f h m, imgCut s = { s with fuse := f, shadow := h, freeCtr := m } := by
  unfold imgCut
  split
  case h_1 => exact ⟨_, _, _, rfl⟩
  case h_2 r _ =>
    by_cases hphase : r.phase ≠ .blowing
    · rw [if_pos hphase]
      exact ⟨_, _, _, rfl⟩
    rw [if_neg hphase]
    by_cases hop : r.op = 4
    · rw [if_pos hop]
      exact ⟨_, _, _, rfl⟩
    · rw [if_neg hop]
      dsimp only [freeValue]
      by_cases hfree : Config.freeNat s.freeCtr % 2 = 0
      · rw [if_pos hfree]
        exact ⟨_, _, _, rfl⟩
      · rw [if_neg hfree]
        obtain ⟨m, hm⟩ := freeBytes_moves_freeCtr 32 { s with freeCtr := s.freeCtr + 1 }
        rw [hm]
        exact ⟨_, _, _, rfl⟩

/-- With no fuse being blown there is nothing to cut. -/
theorem imgCut_of_not_blowing {s : State} (h : ¬ s.blowing) : imgCut s = s := by
  unfold imgCut
  split
  case h_1 => rfl
  case h_2 r hr => rw [if_pos fun hphase => h ⟨r, hr, hphase⟩]

/-- The calibration set-up touches the calibration and may raise events (R140). -/
theorem calSetup_moves_cal (s : State) : ∃ c e, calSetup s = { s with cal := c, stage := e } := by
  unfold calSetup
  refine List.foldlRecOn (motive := fun u => ∃ c e, u = { s with cal := c, stage := e }) _ _ ?_ ?_
  · exact ⟨_, _, rfl⟩
  · rintro _ ⟨c, e, rfl⟩ k -
    dsimp only
    split
    · exact ⟨_, _, rfl⟩
    · exact ⟨_, _, rfl⟩

/-- The sources of time are judged, which may raise events: of the time service neither device time nor `TPULSE` moves. -/
def SourcesJudged (s t : State) : Prop :=
  ∃ m e, t = { s with tim := m, stage := e }
    ∧ m.ns = s.tim.ns ∧ m.sub = s.tim.sub ∧ m.pulseHigh = s.tim.pulseHigh

theorem SourcesJudged.refl (s : State) : SourcesJudged s s := ⟨s.tim, s.stage, rfl, rfl, rfl, rfl⟩

theorem SourcesJudged.trans {s t u : State} (hst : SourcesJudged s t) (htu : SourcesJudged t u) : SourcesJudged s u := by
  obtain ⟨m, e, rfl, hns, hsub, hpulse⟩ := hst
  obtain ⟨m', e', rfl, hns', hsub', hpulse'⟩ := htu
  exact ⟨m', e', rfl, hns'.trans hns, hsub'.trans hsub, hpulse'.trans hpulse⟩

theorem sourcesJudged_raiseM (name : EventName) (detail : Nat) (s : State) : SourcesJudged s (raiseM name detail s) :=
  ⟨s.tim, _, rfl, rfl, rfl, rfl⟩

theorem sourcesJudged_enterVigil (s : State) : SourcesJudged s (enterVigil s) := ⟨_, _, rfl, rfl, rfl, rfl⟩

theorem sourcesJudged_enterLocked (s : State) : SourcesJudged s (enterLocked s) := ⟨_, _, rfl, rfl, rfl, rfl⟩

theorem sourcesJudged_newSource (c : Nat) (s : State) : SourcesJudged s (newSource c s) := by
  unfold newSource
  dsimp only
  split
  · exact ⟨_, _, rfl, rfl, rfl, rfl⟩
  · exact ⟨_, _, rfl, rfl, rfl, rfl⟩

theorem sourcesJudged_timeSources (s : State) : SourcesJudged s (timeSources s) := by
  unfold timeSources
  extract_lets ok lost tim valid told c sourced
  have hvalid : SourcesJudged s valid := ⟨_, _, rfl, rfl, rfl, rfl⟩
  have htold : SourcesJudged valid told := by
    unfold told
    split
    · exact sourcesJudged_raiseM _ _ _
    · exact .refl _
  have hsourced : SourcesJudged told sourced := by
    unfold sourced
    split
    · exact .refl _
    · exact sourcesJudged_newSource _ _
  refine hvalid.trans (htold.trans (hsourced.trans ?_))
  split
  · exact sourcesJudged_enterVigil _
  · exact ⟨_, _, rfl, rfl, rfl, rfl⟩
  · exact sourcesJudged_enterLocked _
  · exact sourcesJudged_enterLocked _
  · exact .refl _

/-! What a warm reset leaves. -/

/-- The domains that stay on, written as the mask of Table 4.3: PD2 stays while a trip stands that has not cooled (R133). -/
theorem warmDomains_mask (tripped cool : Bool) :
    (warmDomains ||| if tripped && !cool then dbit 2 else 0)
      = if tripped = true ∧ cool = false then 0x600007 else 0x600003 := by
  revert tripped cool; decide

/-- What a warm reset clears, before the calibration is set up again and the sources of time are judged. -/
def warmCleared (bits : BitVec 8) (timer : Bool) (s : State) : State :=
  let stays := s.pwr.tripped && !s.pwr.tripCool
  { pins := s.pins, straps := s.straps, fuse := s.fuse, shadow := s.shadow,
    pwr := { stage := .waitRelease, pllLock := s.pwr.pllLock, pcieRefOk := s.pwr.pcieRefOk,
             on := s.pwr.on &&& (warmDomains ||| if stays then dbit 2 else 0),
             cause := s.pwr.cause ||| bits ||| s.tripCause, releaseTimer := timer, tripped := stays },
    cal := Cal.fresh s.shadow.gradeX, tim := s.tim, trks := s.hopTable, tdm := s.tdm.fresh, frame := s.frame,
    pci := { aer := s.pci.aer }, jtag := s.jtag, freeCtr := s.freeCtr, out := s.out, pending := s.pending }

theorem warmReset_eq (bits : BitVec 8) (timer : Bool) (s : State) :
    warmReset bits timer s = timeSources (calSetup (warmCleared bits timer (imgCut s))) := rfl

/-- A warm reset with these cause bits came from `s` to `t`, with the 10 µs delay armed or not; it has no part in the
pins. -/
def WarmedTo (bits : BitVec 8) (timer : Bool) (s t : State) : Prop :=
  WarmFrom bits s t ∧ t.pwr.releaseTimer = timer ∧ t.pins = s.pins

theorem warmedTo_warmCleared (bits : BitVec 8) (timer : Bool) (s : State) :
    WarmedTo bits timer s (warmCleared bits timer (imgCut s)) := by
  obtain ⟨f, h, m, hcut⟩ := imgCut_moves_fuses s
  have hfuse : ¬ s.blowing → f = s.fuse ∧ h = s.shadow := fun hb =>
    have hs := hcut.symm.trans (imgCut_of_not_blowing hb)
    ⟨congrArg State.fuse hs, congrArg State.shadow hs⟩
  have hon := congrArg (s.pwr.on &&& ·) (warmDomains_mask s.pwr.tripped s.pwr.tripCool)
  rw [hcut]
  refine ⟨⟨rfl, hon, rfl, rfl, ?_⟩, rfl, rfl⟩
  simpa only [warmCleared, true_and] using hfuse

section
variable {bits : BitVec 8} {timer : Bool} {s t : State}

theorem WarmedTo.calSetup (h : WarmedTo bits timer s t) : WarmedTo bits timer s (calSetup t) := by
  obtain ⟨c, e, hcal⟩ := calSetup_moves_cal t
  rw [hcal]
  exact h

theorem WarmedTo.timeSources (h : WarmedTo bits timer s t) : WarmedTo bits timer s (timeSources t) := by
  obtain ⟨m, e, htim, hns, hsub, hpulse⟩ := sourcesJudged_timeSources t
  rw [htim]
  simpa only [WarmedTo, WarmFrom, hns, hsub, hpulse] using h

theorem WarmedTo.commitEvents (h : WarmedTo bits timer s t) : WarmedTo bits timer s (commitEvents t) := by
  simpa only [WarmedTo, WarmFrom, commitEvents_pwr, commitEvents_img, commitEvents_pci, commitEvents_jtag,
    commitEvents_ros, commitEvents_ctxs, commitEvents_cox, commitEvents_cmd, commitEvents_xfers, commitEvents_cells,
    commitEvents_chs, commitEvents_arbs, commitEvents_straps, commitEvents_tim, commitEvents_frame,
    commitEvents_pending, commitEvents_fuse, commitEvents_shadow, commitEvents_pins] using h

end

/-- A warm reset answers a next state, cleared and kept as Table 4.3 says. -/
theorem finish_warmReset (bits : BitVec 8) (timer : Bool) (s : State) :
    ∃ t, finish (warmReset bits timer s) = .next t ∧ WarmedTo bits timer s t :=
  ⟨_, rfl, by rw [warmReset_eq]; exact (warmedTo_warmCleared bits timer s).calSetup.timeSources.commitEvents⟩

/-- Nothing raised: a command that answers its own state ends on it. -/
theorem finish_quiet {s : State} (h : eventsDelivered s) : finish s = .next s := congrArg _ (commit_quiet h)

/-! The triggers. -/

theorem exec_perstNAssert (s : State) : exec .perstNAssert s = finish (perstOn s) := rfl
theorem exec_hotReset (s : State) : exec .hotReset s = finish (linkReset 8 s) := rfl
theorem exec_dlDown (s : State) : exec .dlDown s = finish (linkReset 16 s) := rfl
theorem exec_pwrResetCtrl (v : Word) (s : State) : exec (.pwrResetCtrl v) s = finish (softWarm v s) := rfl

/-- `PERST_N` is asserted (R115): the pins of the state on which a warm reset may follow. -/
def State.perstLow (s : State) : State := { s with pins := { s.pins with perstHigh := false, perstWait := false } }

theorem perstOn_resets {s : State} (hhigh : s.pins.perstHigh = true) (hok : s.warmOk = true) :
    perstOn s = warmReset 4 false s.perstLow := if_pos (Bool.and_eq_true_iff.mpr ⟨hhigh, hok⟩)

theorem perstOn_idle {s : State} (h : s.pins.perstHigh = false ∨ s.warmOk = false) : perstOn s = s.perstLow := by
  refine if_neg ?_
  rw [Bool.not_eq_true, Bool.and_eq_false_iff]
  exact h

theorem linkReset_resets {s : State} (bits : BitVec 8) (hstage : s.pwr.stage = .started) (hon : s.isOn 2 = true) :
    linkReset bits s = warmReset bits true s := if_pos ⟨hstage, hon⟩

theorem linkReset_idle {s : State} (bits : BitVec 8) (h : s.pwr.stage ≠ .started ∨ s.isOn 2 = false) :
    linkReset bits s = s := by
  refine if_neg ?_
  rwa [Decidable.not_and_iff_not_or_not, Bool.not_eq_true]

theorem softWarm_keyed {v : Word} {s : State} (hblk : s.responds .clkPwr = true) (hbit : v.getLsbD 0 = true)
    (hkey : v.extractLsb' 8 8 = 0xA5) : softWarm v s = linkReset 32 s := by
  unfold softWarm
  rw [hblk, hbit, hkey]
  rfl

/-- R119: any other write is ignored. -/
theorem softWarm_ignored {v : Word} (s : State) (h : v.getLsbD 0 = false ∨ v.extractLsb' 8 8 ≠ 0xA5) :
    softWarm v s = s := by
  refine if_neg ?_
  rw [Bool.not_eq_true, Bool.and_eq_false_iff, Bool.and_eq_false_iff, beq_eq_false_iff_ne]
  rcases h with hbit | hkey
  · exact .inl (.inr hbit)
  · exact .inr hkey

/-- A warm reset through the link, after its trigger has been judged. -/
theorem finish_linkReset {s : State} (bits : BitVec 8) (hstage : s.pwr.stage = .started) (hon : s.isOn 2 = true) :
    ∃ t, finish (linkReset bits s) = .next t ∧ t.pwr.releaseTimer = true ∧ WarmFrom bits s t := by
  obtain ⟨t, ht, hwarm, htimer, -⟩ := finish_warmReset bits true s
  exact ⟨t, (linkReset_resets bits hstage hon).symm ▸ ht, htimer, hwarm⟩

theorem perstNAssert_resets {s : State} (hhigh : s.pins.perstHigh = true) (hok : s.warmOk = true) :
    ∃ t, exec .perstNAssert s = .next t ∧ t.pins.perstHigh = false ∧ t.pwr.releaseTimer = false ∧ WarmFrom 4 s t := by
  obtain ⟨t, ht, hwarm, htimer, hpins⟩ := finish_warmReset 4 false s.perstLow
  exact ⟨t, by rw [exec_perstNAssert, perstOn_resets hhigh hok, ht], by rw [hpins]; rfl, htimer, hwarm⟩

/-- Settles O2: each trigger that acts is the one warm reset, and each that does not leaves all but the pin alone.  That
the AER bits stay rests on log 70, and that the link's triggers do nothing before the release point or with PD2 off on
log 44. -/
theorem warmResetsFromTheirTriggersOnly : Obligations.WarmResetsFromTheirTriggersOnly := by
  refine ⟨⟨fun s => perstNAssert_resets, fun s => finish_linkReset 8, fun s => finish_linkReset 16, ?_⟩, ?_, ?_, ?_⟩
  · intro v s hstage hon hblk hbit hkey
    rw [exec_pwrResetCtrl, softWarm_keyed hblk hbit hkey]
    exact finish_linkReset 32 hstage hon
  · intro s hquiet h
    have hlow : eventsDelivered s.perstLow := hquiet
    rw [exec_perstNAssert, perstOn_idle h, finish_quiet hlow]
    rfl
  · intro s hquiet h
    rw [exec_hotReset, exec_dlDown, linkReset_idle 8 h, linkReset_idle 16 h]
    exact ⟨finish_quiet hquiet, finish_quiet hquiet⟩
  · intro v s hquiet h
    rw [exec_pwrResetCtrl, softWarm_ignored s h, finish_quiet hquiet]

end Sys2Proof.Machine
end

section
/-! PROOFS. Mailboxes (R289, R290): what one write to a crew's registers with one event leaves, then what a doorbell and
an acknowledgement of either direction do, then the registers they arrive at. -/

namespace Sys2Proof.Machine

/-! One write to a crew's registers, with one event. -/

/-- A write to a crew's registers that has no part in how the crew takes events (R490). -/
def KeepsEvents (f : Crew → Crew) : Prop := ∀ c, (f c).evt = c.evt ∧ (f c).bme = c.bme

theorem keepsEvents_setUp (m : Mbox) : KeepsEvents (setUp m) := fun _ => ⟨rfl, rfl⟩
theorem keepsEvents_setDn (m : Mbox) : KeepsEvents (setDn m) := fun _ => ⟨rfl, rfl⟩

/-- `f` has been written to crew `k`'s registers and function `fn` told; nothing else has moved. -/
def WrittenAndTold (k : Nat) (f : Crew → Crew) (fn : Nat) (name : EventName) (detail : Nat) (s t : State) : Prop :=
  t.crew k = { f (s.crew k) with evt := (t.crew k).evt }
    ∧ Told s t fn name 255 detail ∧ Only (fun p => p ∈ [.crew k, .evt fn]) s t

section
variable {f : Crew → Crew} {s t : State} {k fn : Nat} {name : EventName} {detail : Nat}

theorem Crew.pushEvent_evt_congr {c d : Crew} (hevt : d.evt = c.evt) (hbme : d.bme = c.bme) (ev : Event) :
    (d.pushEvent ev).evt = (c.pushEvent ev).evt := by
  simp only [Crew.pushEvent, hevt, hbme, apply_ite Crew.evt]

theorem told_updCrew (hf : KeepsEvents f) :
    Told s ((s.updCrew k f).told fn name 255 detail) fn name 255 detail := by
  unfold Told State.told
  rw [State.updCrew_crew, State.updCrew_tim]
  by_cases hk : fn = k
  · subst hk
    obtain ⟨hevt, hbme⟩ := hf (s.crew fn)
    rw [State.updCrew_crew, Crew.pushEvent_evt_congr hevt hbme]
  · rw [State.updCrew_crew_ne _ hk]

theorem only_updCrew (hf : KeepsEvents f) : Only (fun p => p ∈ [.crew k]) s (s.updCrew k f) := by
  intro p hp
  cases p
  case crew j =>
    have hj : j ≠ k := by rintro rfl; simp at hp
    simp only [Part.same, State.updCrew_crew_ne _ hj]
  case evt j =>
    by_cases hj : j = k
    · subst hj
      simp only [Part.same, State.updCrew_crew, hf (s.crew j)]
    · simp only [Part.same, State.updCrew_crew_ne _ hj]
  all_goals rfl

theorem told_crew_evt (s : State) (k fn : Nat) (name : EventName) (trunk detail : Nat) :
    (s.told fn name trunk detail).crew k
      = { s.crew k with evt := ((s.told fn name trunk detail).crew k).evt } := by
  unfold State.told
  by_cases hk : k = fn
  · subst hk
    obtain ⟨e, he⟩ := (s.crew k).pushEvent_evt ⟨name, trunk, detail, s.tim.ns⟩
    rw [State.updCrew_crew, he]
  · rw [State.updCrew_crew_ne _ hk]

/-- A command that writes a crew's registers and raises one event ends with that function told. -/
theorem finish_raise_updCrew (hquiet : eventsDelivered s) (hf : KeepsEvents f) :
    ∃ t, finish (raise fn name 255 detail (s.updCrew k f)) = .next t ∧ WrittenAndTold k f fn name detail s t := by
  have hupd : eventsDelivered (s.updCrew k f) := hquiet
  have hwrite : Only (fun p => p ∈ [.crew k, .evt fn]) s (s.updCrew k f) :=
    (only_updCrew hf).mono fun p hp => by simp_all
  have htell : Only (fun p => p ∈ [.crew k, .evt fn]) (s.updCrew k f) ((s.updCrew k f).told fn name 255 detail) :=
    (only_told _ fn name 255 detail).mono fun p hp => by simp_all
  have hcrew := told_crew_evt (s.updCrew k f) k fn name 255 detail
  rw [State.updCrew_crew] at hcrew
  rw [finish, commit_one hupd]
  exact ⟨_, rfl, hcrew, told_updCrew hf, hwrite.trans htell⟩

/-- With another function told, the crew's own registers are as written, its event ring among them. -/
theorem WrittenAndTold.crew_eq (h : WrittenAndTold k f fn name detail s t) (hf : KeepsEvents f) (hk : k ≠ fn) :
    t.crew k = f (s.crew k) := by
  obtain ⟨hcrew, -, honly⟩ := h
  have hevt : (t.crew k).evt = (f (s.crew k)).evt := (honly (.evt k) (by simp [hk])).trans (hf _).1.symm
  rwa [hevt] at hcrew

end

/-! A doorbell and an acknowledgement, of either direction. -/

section
variable {s : State} {k sender receiver len sq : Nat} {get : Crew → Mbox} {set : Mbox → Crew → Crew}

/-- The next message in sequence is snapshot and the receiver told (R289). -/
theorem doorbell_delivers (hquiet : eventsDelivered s) (hset : ∀ m, KeepsEvents (set m)) (hlo : 1 ≤ len) (hhi : len ≤ 16)
    (hfree : (get (s.crew k)).pending = false) (hseq : sq % 256 = ((get (s.crew k)).seq + 1) % 256) :
    ∃ t, finish (doorbell k sender receiver get set len sq s) = .next t
      ∧ WrittenAndTold k (set ((get (s.crew k)).take len (sq % 256))) receiver .mbxReceived (pairDetail k sq) s t := by
  have hlen : ¬ (len = 0 ∨ 16 < len) := by omega
  simp only [doorbell, if_neg hlen, hfree, Bool.false_eq_true, if_false, hseq, ne_eq, not_true]
  exact finish_raise_updCrew hquiet (hset _)

/-- While a message is pending, the next is dropped and the sender told (R289). -/
theorem doorbell_drops (hquiet : eventsDelivered s) (hset : ∀ m, KeepsEvents (set m)) (hlo : 1 ≤ len) (hhi : len ≤ 16)
    (hpend : (get (s.crew k)).pending = true) :
    ∃ t, finish (doorbell k sender receiver get set len sq s) = .next t
      ∧ WrittenAndTold k (set { get (s.crew k) with busyDrop := true }) sender .mbxDropped (pairDetail k sq) s t := by
  have hlen : ¬ (len = 0 ∨ 16 < len) := by omega
  simp only [doorbell, if_neg hlen, hpend, if_true]
  exact finish_raise_updCrew hquiet (hset _)

/-- A message out of sequence is dropped and the sender told (R289). -/
theorem doorbell_outOfSequence (hquiet : eventsDelivered s) (hset : ∀ m, KeepsEvents (set m)) (hlo : 1 ≤ len)
    (hhi : len ≤ 16) (hfree : (get (s.crew k)).pending = false) (hseq : sq % 256 ≠ ((get (s.crew k)).seq + 1) % 256) :
    ∃ t, finish (doorbell k sender receiver get set len sq s) = .next t
      ∧ WrittenAndTold k (set { get (s.crew k) with seqErr := true }) sender .mbxSeqErr (pairDetail k sq) s t := by
  have hlen : ¬ (len = 0 ∨ 16 < len) := by omega
  simp only [doorbell, if_neg hlen, hfree, Bool.false_eq_true, if_false, if_pos hseq]
  exact finish_raise_updCrew hquiet (hset _)

/-- An event's detail shows the low 8 bits of each number. -/
theorem pairDetail_mod (a b : Nat) : pairDetail a (b % 256) = pairDetail a b := by
  rw [pairDetail, Nat.mod_mod, pairDetail]

/-- The acknowledgement that names the pending message clears it and tells the sender (R290). -/
theorem mbxAck_clears (hquiet : eventsDelivered s) (hset : ∀ m, KeepsEvents (set m))
    (hpend : (get (s.crew k)).pending = true) (hseq : (get (s.crew k)).seq = sq % 256) :
    ∃ t, finish (mbxAck k sender get set sq s) = .next t
      ∧ WrittenAndTold k (set { get (s.crew k) with pending := false }) sender .mbxAcked (pairDetail k sq) s t := by
  have hnames : ((get (s.crew k)).pending && (get (s.crew k)).seq == sq % 256) = true := by rw [hpend, hseq]; simp
  have hdetail : pairDetail k (get (s.crew k)).seq = pairDetail k sq := by rw [hseq, pairDetail_mod]
  rw [mbxAck, if_pos hnames, hdetail]
  exact finish_raise_updCrew hquiet (hset _)

/-- An acknowledgement that names no pending message is ignored (R290). -/
theorem mbxAck_ignored (h : (get (s.crew k)).pending = false ∨ (get (s.crew k)).seq ≠ sq % 256) :
    mbxAck k sender get set sq s = s := by
  refine if_neg ?_
  rwa [Bool.not_eq_true, Bool.and_eq_false_iff, beq_eq_false_iff_ne]

end

/-! The registers of a RUNNING crew, where doorbells and acknowledgements arrive (Table 8.3). -/

section
variable {s : State} {k : Fin 64} (hk : 1 ≤ k.val) (hblk : s.responds .crw = true) (hrun : (s.crew k).st = .running)

include hk hrun in
theorem crewRuns_of_running : s.crewRuns k = true := by
  rw [State.crewRuns, if_neg (Nat.ne_of_gt hk), hrun]
  rfl

include hk hblk

theorem exec_mbxUpAck_responds (sq : Nat) :
    exec (.mbxUpAck k sq) s = finish (mbxAck k k (·.mboxUp) setUp sq s) := by
  have hok : (s.responds .crw && decide (k.val ≠ 0)) = true := by simp [hblk, Nat.ne_of_gt hk]
  exact congrArg finish (if_pos hok)

include hrun

theorem regOk_window_running : s.regOk .window k .crw = true := by
  simp [State.regOk, hblk, crewRuns_of_running hk hrun, Nat.ne_of_gt hk]

theorem exec_mbxUpDb_running (len sq : Nat) :
    exec (.mbxUpDb k len sq) s = finish (doorbell k k 0 (·.mboxUp) setUp len sq s) :=
  congrArg finish (if_pos (regOk_window_running hk hblk hrun))

theorem exec_mbxDnDb_running (len sq : Nat) :
    exec (.mbxDnDb k len sq) s = finish (doorbell k 0 k (·.mboxDn) setDn len sq s) :=
  congrArg finish (if_pos (regOk_window_running hk hblk hrun))

theorem exec_mbxDnAck_running (sq : Nat) :
    exec (.mbxDnAck k sq) s = finish (mbxAck k 0 (·.mboxDn) setDn sq s) := by
  have hok : (s.responds .crw && decide (k.val ≠ 0) && (s.crewRuns k || (s.crew k).st == .resetting)) = true := by
    simp [hblk, crewRuns_of_running hk hrun, Nat.ne_of_gt hk]
  exact congrArg finish (if_pos hok)

end

/-- Settles O31: a doorbell and an acknowledgement do in either direction what the shared operations do. -/
theorem mailboxesCarryMessages : Obligations.MailboxesCarryMessages := by
  intro k len sq s hquiet hk hblk hrun
  have hne : k.val ≠ 0 := Nat.ne_of_gt hk
  rw [exec_mbxUpDb_running hk hblk hrun, exec_mbxDnDb_running hk hblk hrun, exec_mbxUpAck_responds hk hblk,
    exec_mbxDnAck_running hk hblk hrun]
  refine ⟨?upNext, ?upBusy, ?dnNext, ?dnOutOfSequence, ?upAcked, ?dnAcked, ?upIgnored, ?dnIgnored⟩
  case upNext =>
    intro hlo hhi hfree hseq
    obtain ⟨t, ht, hmoved⟩ := doorbell_delivers (get := (·.mboxUp)) hquiet keepsEvents_setUp hlo hhi hfree hseq
    have hcrew := hmoved.crew_eq (keepsEvents_setUp _) hne
    exact ⟨t, ht, hcrew, hmoved.2⟩
  case upBusy =>
    intro hlo hhi hpend
    obtain ⟨t, ht, hcrew, hrest⟩ := doorbell_drops (get := (·.mboxUp)) hquiet keepsEvents_setUp hlo hhi hpend
    exact ⟨t, ht, congrArg Crew.mboxUp hcrew, hrest⟩
  case dnNext =>
    intro hlo hhi hfree hseq
    obtain ⟨t, ht, hcrew, hrest⟩ := doorbell_delivers (get := (·.mboxDn)) hquiet keepsEvents_setDn hlo hhi hfree hseq
    exact ⟨t, ht, congrArg Crew.mboxDn hcrew, hrest⟩
  case dnOutOfSequence =>
    intro hlo hhi hfree hseq
    obtain ⟨t, ht, hcrew, htold, -⟩ :=
      doorbell_outOfSequence (get := (·.mboxDn)) hquiet keepsEvents_setDn hlo hhi hfree hseq
    exact ⟨t, ht, congrArg Crew.mboxDn hcrew, htold⟩
  case upAcked =>
    intro hpend hseq
    obtain ⟨t, ht, hcrew, hrest⟩ := mbxAck_clears (get := (·.mboxUp)) hquiet keepsEvents_setUp hpend hseq
    exact ⟨t, ht, congrArg Crew.mboxUp hcrew, hrest⟩
  case dnAcked =>
    intro hpend hseq
    obtain ⟨t, ht, hcrew, hrest⟩ := mbxAck_clears (get := (·.mboxDn)) hquiet keepsEvents_setDn hpend hseq
    exact ⟨t, ht, congrArg Crew.mboxDn hcrew, hrest⟩
  case upIgnored =>
    intro hother
    rw [mbxAck_ignored hother, finish_quiet hquiet]
  case dnIgnored =>
    intro hother
    rw [mbxAck_ignored hother, finish_quiet hquiet]

end Sys2Proof.Machine
end

section
/-! PROOFS. Completion queues (R301, R304, R320): what a write to one queue leaves alone, then what starting a queue,
stopping it and moving its HEAD do, each by the condition it is judged on. -/

namespace Sys2Proof.Machine

/-- A command that raises one event and writes nothing ends with that function told. -/
theorem finish_raise {s : State} (hquiet : eventsDelivered s) (fn : Nat) (name : EventName) (trunk detail : Nat) :
    finish (raise fn name trunk detail s) = .next (s.told fn name trunk detail) :=
  congrArg _ (commit_one hquiet fn name trunk detail)

/-! A write to one completion queue. -/

theorem keepsEvents_updCq (q : Nat) (f : Cq → Cq) : KeepsEvents (·.updCq q f) := fun _ => ⟨rfl, rfl⟩

theorem only_updCq (s : State) (k q : Nat) (f : Cq → Cq) : Only (fun p => p ∈ [.crew k]) s (s.updCq k q f) :=
  only_updCrew (keepsEvents_updCq q f)

theorem State.updCq_cq_ne (s : State) (k : Nat) {p q : Nat} (h : p ≠ q) (f : Cq → Cq) :
    (s.updCq k q f).cq k p = s.cq k p := by
  rw [State.updCq, State.cq, State.updCrew_crew, Crew.updCq_cq_ne _ h, State.cq]

/-- A command that writes one completion queue leaves the crew's other queues, and the rest of the state, alone. -/
theorem finish_updCq {s : State} (hquiet : eventsDelivered s) (k q : Nat) (f : Cq → Cq) :
    ∃ t, finish (s.updCq k q f) = .next t ∧ t.cq k q = f (s.cq k q) ∧ (∀ j, j ≠ q → t.cq k j = s.cq k j)
      ∧ Only (fun p => p ∈ [.crew k]) s t := by
  have hwritten : eventsDelivered (s.updCq k q f) := hquiet
  exact ⟨_, finish_quiet hwritten, s.updCq_cq k q f, fun j hj => s.updCq_cq_ne k hj f, only_updCq s k q f⟩

/-! The three operations, on a register access that takes effect. -/

/-- A queue as `CQ_CTRL.enable` leaves it (R301). -/
def Cq.started (c : Cq) : Cq := { c with enabled := true, head := 0, tail := 0, stalled := false, waiters := [] }

/-- A queue as `CQ_CTRL.disable` leaves it (R301). -/
def Cq.stopped (c : Cq) : Cq := { c with enabled := false, stalled := false, waiters := [] }

/-- A queue with space taken back up to HEAD `h`: its stall goes on only while no slot is free (R304, R320). -/
def Cq.withHead (h : Word) (c : Cq) : Cq :=
  { c with head := h, stalled := c.stalled && decide (2 ^ c.sizeLog2 ≤ (c.tail - h).toNat) }

theorem headOk_iff {h old tail : Word} {sizeLog2 : Nat} :
    headOk h old tail sizeLog2 = true ↔
      (tail - h).toNat ≤ 2 ^ sizeLog2 ∧ (h - old).toNat ≤ (tail - old).toNat := by
  rw [headOk, Bool.and_eq_true_iff, decide_eq_true_iff, decide_eq_true_iff]

section
variable {acc : Acc} {k q : Nat} {s : State} (hacc : s.regOk acc k .rng = true)
include hacc

theorem cqEnableOp_starts (hoff : (s.cq k q).enabled = false) (hsize : (s.cq k q).sizeOk = true) :
    cqEnableOp acc k q s = s.updCq k q Cq.started := by
  simp only [cqEnableOp, hacc, hoff, hsize]
  rfl

theorem cqDisableOp_stops (hon : (s.cq k q).enabled = true) (hfree : s.cqNamed k q = false) :
    cqDisableOp acc k q s = s.updCq k q Cq.stopped := by
  simp only [cqDisableOp, hacc, hon, hfree]
  rfl

theorem cqDisableOp_refused (hon : (s.cq k q).enabled = true) (hnamed : s.cqNamed k q = true) :
    cqDisableOp acc k q s = cfgReject (accFn acc k) (cqOffset acc k q 0x18) s := by
  simp only [cqDisableOp, hacc, hon, hnamed]
  rfl

theorem cqHead_moves {h : Word} (hon : (s.cq k q).enabled = true)
    (hin : headOk h (s.cq k q).head (s.cq k q).tail (s.cq k q).sizeLog2 = true) :
    cqHead acc k q h s = s.updCq k q (Cq.withHead h) := by
  simp only [cqHead, hacc, hon, hin]
  rfl

theorem cqHead_refused {h : Word} (hon : (s.cq k q).enabled = true)
    (hout : headOk h (s.cq k q).head (s.cq k q).tail (s.cq k q).sizeLog2 = false) :
    cqHead acc k q h s = raise k .ringIndexInvalid 255 (pairDetail q 1) s := by
  simp only [cqHead, hacc, hon, hout]
  rfl

end

/-! The commands. -/

theorem exec_cqEnable (acc : Acc) (k : Fin 64) (q : Fin 8) (s : State) :
    exec (.cqEnable acc k q) s = finish (cqEnableOp acc k q s) := rfl
theorem exec_cqDisable (acc : Acc) (k : Fin 64) (q : Fin 8) (s : State) :
    exec (.cqDisable acc k q) s = finish (cqDisableOp acc k q s) := rfl
theorem exec_cqHeadWrite (acc : Acc) (k : Fin 64) (q : Fin 8) (h : Word) (s : State) :
    exec (.cqHeadWrite acc k q h) s = finish (cqHead acc k q h s) := rfl

/-- Settles O33: each command either writes the one queue it names or raises one event and writes nothing. -/
theorem completionQueuesGiveSpace : Obligations.CompletionQueuesGiveSpace := by
  intro acc k q s hquiet hacc
  refine ⟨?enabled, ?disabled, ?disableRefused, fun h hon => ⟨?headMoved, ?headRefused⟩⟩
  case enabled =>
    intro hoff hsize
    rw [exec_cqEnable, cqEnableOp_starts hacc hoff hsize]
    exact finish_updCq hquiet k q Cq.started
  case disabled =>
    intro hon hfree
    rw [exec_cqDisable, cqDisableOp_stops hacc hon hfree]
    obtain ⟨t, ht, hcq, -, honly⟩ := finish_updCq hquiet k q Cq.stopped
    exact ⟨t, ht, hcq, honly⟩
  case disableRefused =>
    intro hon hnamed
    rw [exec_cqDisable, cqDisableOp_refused hacc hon hnamed]
    exact finish_raise hquiet _ _ _ _
  case headMoved =>
    intro hsize hforward
    rw [exec_cqHeadWrite, cqHead_moves hacc hon (headOk_iff.mpr ⟨hsize, hforward⟩)]
    obtain ⟨t, ht, hcq, -, honly⟩ := finish_updCq hquiet k q (Cq.withHead h)
    exact ⟨t, ht, hcq, honly⟩
  case headRefused =>
    intro hbad
    have hout : headOk h (s.cq k q).head (s.cq k q).tail (s.cq k q).sizeLog2 = false := by
      rw [Bool.eq_false_iff, Ne, headOk_iff]
      omega
    rw [exec_cqHeadWrite, cqHead_refused hacc hon hout]
    exact finish_raise hquiet _ _ _ _

end Sys2Proof.Machine
end

section
/-! PROOFS. Time references, the pulse and the read of device time (R410 to R412, R416 to R418, R423 to R426, R435): what
an advance of time and the judging of the sources may touch, then each command by the condition it is judged on. -/

namespace Sys2Proof.Machine

/-! Advances of time (R408). -/

/-- Time has advanced from `t` to `u`, and nothing else of the time service has moved. -/
def Tim.AdvancedTo (t u : Tim) : Prop := ∃ n f e, u = { t with ns := n, sub := f, elapsed := e }

section
variable {t u : Tim} {n e : Nat}

theorem Tim.advancedTo_reach (t : Tim) (n : Nat) : t.AdvancedTo (t.reach n) := by
  unfold Tim.reach
  split
  · exact ⟨_, _, _, rfl⟩
  · exact ⟨_, _, _, rfl⟩

theorem Tim.reach_ns (t : Tim) (n : Nat) : (t.reach n).ns = max t.ns n := by
  unfold Tim.reach
  split
  case isTrue h => exact (Nat.max_eq_left h).symm
  case isFalse h => exact (Nat.max_eq_right (Nat.le_of_not_le h)).symm

theorem Tim.upTo_of_le (hrun : t.running = true) (h : n ≤ max t.ns t.nextBoundary) : t.upTo n = some (t.reach n) := by
  rw [Tim.upTo, hrun, if_pos h]
  rfl

/-- An instant beyond the next frame boundary has not come (log 7). -/
theorem Tim.upTo_of_gt (h : max t.ns t.nextBoundary < n) : t.upTo n = none := by
  rw [Tim.upTo, if_neg (Nat.not_le.mpr h), ite_self]

theorem Tim.advancedTo_of_upTo (h : t.upTo n = some u) : t.AdvancedTo u := by
  unfold Tim.upTo at h
  split at h
  · cases h
  split at h
  · cases h
    exact t.advancedTo_reach n
  · cases h

theorem Tim.advancedTo_of_elapsedTo (h : t.elapsedTo e = some u) : t.AdvancedTo u := by
  unfold Tim.elapsedTo at h
  split at h
  · cases h
  split at h
  · cases h
    exact ⟨_, _, _, rfl⟩
  dsimp only at h
  split at h
  · cases h
    exact ⟨_, _, _, rfl⟩
  · cases h

end

/-! The judging of the sources (R410 to R416): the partner's validity, the selection of a source, then the state. -/

/-- The partner's validity, judged again (R410). -/
def partnerJudged (s : State) : State :=
  let judged := { s with tim := { s.tim with valid2 := s.partnerOk } }
  if s.tim.valid2 && !s.partnerOk then raiseM .timeRefLost 2 judged else judged

/-- The selected source, judged again (R412). -/
def sourceJudged (s : State) : State :=
  if s.tim.select = s.tim.source then s else newSource s.tim.select s

/-- The state of the time service, judged again (R416). -/
def timeStateJudged (s : State) : State :=
  match s.tim.state, s.tim.anyValid with
  | .locked, false => enterVigil s
  | .unset, false => { s with tim := { s.tim with rate := s.tim.held } }
  | .vigil, true => enterLocked s
  | .freeRun, true => enterLocked s
  | _, _ => s

theorem timeSources_eq (s : State) : timeSources s = timeStateJudged (sourceJudged (partnerJudged s)) := rfl

theorem partnerJudged_tim (s : State) : (partnerJudged s).tim = { s.tim with valid2 := s.partnerOk } := by
  unfold partnerJudged
  dsimp only
  split
  · rfl
  · rfl

theorem newSource_tim (c : Nat) (s : State) : ∃ v r w, (newSource c s).tim =
    { s.tim with source := c, step := none, converged := v, convRun := r, slewing := w } := by
  unfold newSource
  dsimp only
  split
  · exact ⟨_, _, _, rfl⟩
  · exact ⟨_, _, _, rfl⟩

/-- The selection of a source touches the loop's run only. -/
theorem sourceJudged_tim (s : State) : ∃ d v r w, (sourceJudged s).tim =
    { s.tim with source := s.tim.select, step := d, converged := v, convRun := r, slewing := w } := by
  unfold sourceJudged
  split
  case isTrue hsame =>
    rw [hsame]
    exact ⟨_, _, _, _, rfl⟩
  case isFalse =>
    obtain ⟨v, r, w, hnew⟩ := newSource_tim s.tim.select s
    exact ⟨_, v, r, w, hnew⟩

/-- Device time and what REFPPS and the manager have shown are the same in `t` and `u`. -/
structure Tim.SamplesKept (t u : Tim) : Prop where
  ns : u.ns = t.ns
  valid1 : u.valid1 = t.valid1
  valid3 : u.valid3 = t.valid3
  ppsGood : u.ppsGood = t.ppsGood
  ppsBad : u.ppsBad = t.ppsBad
  ppsLast : u.ppsLast = t.ppsLast
  ppsTheta : u.ppsTheta = t.ppsTheta
  mgrTheta : u.mgrTheta = t.mgrTheta
  mgrSeen : u.mgrSeen = t.mgrSeen

/-- The first two judgements, as far as the third and the samples see them. -/
theorem sourceJudged_partnerJudged (s : State) :
    let judged := (sourceJudged (partnerJudged s)).tim
    s.tim.SamplesKept judged ∧ judged.source = { s.tim with valid2 := s.partnerOk }.select
      ∧ judged.state = s.tim.state ∧ judged.valid2 = s.partnerOk := by
  obtain ⟨d, v, r, w, hsel⟩ := sourceJudged_tim (partnerJudged s)
  rw [partnerJudged_tim] at hsel
  rw [hsel]
  exact ⟨⟨rfl, rfl, rfl, rfl, rfl, rfl, rfl, rfl, rfl⟩, rfl, rfl, rfl⟩

/-- Judging the state touches the state and the rates only. -/
theorem timeStateJudged_tim (s : State) : ∃ m i r h e, (timeStateJudged s).tim =
    { s.tim with state := m, integ := i, rate := r, held := h, vigilAt := e } := by
  unfold timeStateJudged
  split
  · exact ⟨_, _, _, _, _, rfl⟩
  · exact ⟨_, _, _, _, _, rfl⟩
  · exact ⟨_, _, _, _, _, rfl⟩
  · exact ⟨_, _, _, _, _, rfl⟩
  · exact ⟨_, _, _, _, _, rfl⟩

theorem timeSources_keepsSamples (s : State) : s.tim.SamplesKept (timeSources s).tim := by
  obtain ⟨m, i, r, h, e, htim⟩ := timeStateJudged_tim (sourceJudged (partnerJudged s))
  obtain ⟨hkept, -⟩ := sourceJudged_partnerJudged s
  rw [timeSources_eq, htim]
  exact { hkept with }

theorem Tim.valid_of_noneValid {t : Tim} (h1 : t.valid1 = false) (h2 : t.valid2 = false) (h3 : t.valid3 = false)
    (c : Nat) : t.valid c = false := by
  unfold Tim.valid
  split
  · exact h1
  · exact h2
  · exact h3
  · rfl

theorem Tim.select_of_noneValid {t : Tim} (h1 : t.valid1 = false) (h2 : t.valid2 = false) (h3 : t.valid3 = false) :
    t.select = 0 := by
  have hnone : ([0, 2, 4].map (fun i => t.srcOrder.toNat / 2 ^ i % 4)).find? t.valid = none :=
    List.find?_eq_none.mpr fun c _ => by rw [Tim.valid_of_noneValid h1 h2 h3 c]; decide
  rw [Tim.select, hnone]
  rfl

theorem enterVigil_tim (s : State) :
    (enterVigil s).tim.source = s.tim.source ∧ (enterVigil s).tim.state = .vigil ∧ (enterVigil s).tim.vigilAt = s.tim.ns
      ∧ (enterVigil s).tim.ns = s.tim.ns := ⟨rfl, rfl, rfl, rfl⟩

theorem Tim.vigilT_at_entry {t : Tim} (h : t.vigilAt = t.ns) : t.vigilT = 0 := by
  rw [Tim.vigilT, h, Nat.sub_self, Nat.zero_div, Nat.min_zero]

/-- With the last source gone, LOCKED goes into VIGIL at this instant (R416, R417). -/
theorem timeSources_loses {s : State} (h1 : s.tim.valid1 = false) (h3 : s.tim.valid3 = false)
    (hpartner : s.partnerOk = false) (hlocked : s.tim.state = .locked) :
    (timeSources s).tim.source = 0 ∧ (timeSources s).tim.state = .vigil ∧ (timeSources s).tim.vigilT = 0
      ∧ (timeSources s).tim.ns = s.tim.ns := by
  obtain ⟨hkept, hsource, hstate, hvalid2⟩ := sourceJudged_partnerJudged s
  have hany : (sourceJudged (partnerJudged s)).tim.anyValid = false := by
    rw [Tim.anyValid, hkept.valid1, hkept.valid3, hvalid2, h1, h3, hpartner]
    rfl
  have hvigil : timeSources s = enterVigil (sourceJudged (partnerJudged s)) := by
    rw [timeSources_eq, timeStateJudged, hstate, hlocked, hany]
  obtain ⟨hsame, hstate', hsince, hns⟩ := enterVigil_tim (sourceJudged (partnerJudged s))
  rw [hvigil]
  exact ⟨hsame.trans (hsource.trans (Tim.select_of_noneValid h1 hpartner h3)), hstate',
    Tim.vigilT_at_entry (hsince.trans hns.symm), hns.trans hkept.ns⟩

/-- A command that answers `s` ends on its time service, whatever events it raised. -/
theorem finish_tim (s : State) : ∃ t, finish s = .next t ∧ t.tim = s.tim := ⟨_, rfl, commitEvents_tim s⟩

/-! REFPPS edges (R410, R411). -/

/-- The offset of an instant from the nearest whole second. -/
def secondOffset (x : Rat) : Rat := x - (((x + 500000000) / 1000000000).floor * 1000000000 : Int)

theorem secondOffset_bounds (x : Rat) : -500000000 ≤ secondOffset x ∧ secondOffset x < 500000000 := by
  have hlow := Rat.floor_le ((x + 500000000) / 1000000000)
  have hhigh := Rat.lt_floor_add_one ((x + 500000000) / 1000000000)
  rw [Rat.intCast_add] at hhigh
  rw [secondOffset, Rat.intCast_mul]
  constructor
  · grind only
  · grind only

/-- The state with an edge taken as good, the `run`th of its run, before the sources are judged. -/
def ppsTaken (stamp : Int) (run : Nat) (s : State) : State :=
  { s with tim := { s.tim with
      ppsLast := some stamp, ppsGood := run, ppsBad := 0,
      ppsTheta := some (secondOffset (stampNs stamp - ((s.calEff 20 : Int) : Rat))), ppsSeen := s.tim.elapsed,
      valid1 := s.tim.valid1 || decide (3 ≤ run) } }

section
variable {stamp p : Int} {s : State}

theorem ppsEdge_inPlace (hlast : s.tim.ppsLast = some p) (hbad : s.tim.ppsBad < 2)
    (hlow : 999000000 ≤ stampNs (stamp - p)) (hhigh : stampNs (stamp - p) ≤ 1001000000) :
    ppsEdge stamp s = timeSources (ppsTaken stamp (s.tim.ppsGood + 1) s) := by
  simp only [ppsEdge, hlast, Nat.not_le.mpr hbad, hlow, hhigh]
  rfl

theorem ppsEdge_outOfPlace (hlast : s.tim.ppsLast = some p) (hbad : s.tim.ppsBad < 2)
    (h : stampNs (stamp - p) < 999000000 ∨ 1001000000 < stampNs (stamp - p)) :
    ppsEdge stamp s = { s with tim := { s.tim with
      ppsBad := s.tim.ppsBad + 1, ppsGood := 0, ppsRejected := satAdd 0xFFFF s.tim.ppsRejected 1 } } := by
  have hout : (decide (999000000 ≤ stampNs (stamp - p)) && decide (stampNs (stamp - p) ≤ 1001000000)) = false := by
    rwa [Bool.and_eq_false_iff, decide_eq_false_iff_not, decide_eq_false_iff_not, Rat.not_le, Rat.not_le]
  simp only [ppsEdge, hlast, Nat.not_le.mpr hbad, hout]
  rfl

/-- After two rejections any edge starts a new run (R411). -/
theorem ppsEdge_startsRun (hbad : 2 ≤ s.tim.ppsBad) : ppsEdge stamp s = timeSources (ppsTaken stamp 1 s) := by
  cases hlast : s.tim.ppsLast with
  | none => simp only [ppsEdge, hlast, hbad]; rfl
  | some p => simp only [ppsEdge, hlast, hbad]; rfl

end

theorem exec_refppsEdge {s : State} (stamp : Int) (hrun : s.tim.running = true) :
    exec (.refppsEdge stamp) s = finish (ppsEdge stamp s) := congrArg finish (if_pos hrun)

/-- What an edge taken as good leaves once the sources have been judged. -/
theorem finish_ppsTaken (stamp : Int) (run : Nat) (s : State) :
    ∃ t, finish (timeSources (ppsTaken stamp run s)) = .next t
      ∧ t.tim.ppsGood = run ∧ t.tim.ppsBad = 0 ∧ t.tim.ppsLast = some stamp
      ∧ t.tim.valid1 = (s.tim.valid1 || decide (3 ≤ run))
      ∧ t.tim.ppsTheta = some (secondOffset (stampNs stamp - ((s.calEff 20 : Int) : Rat))) := by
  obtain ⟨t, ht, htim⟩ := finish_tim (timeSources (ppsTaken stamp run s))
  have hkept := timeSources_keepsSamples (ppsTaken stamp run s)
  rw [← htim] at hkept
  exact ⟨t, ht, hkept.ppsGood, hkept.ppsBad, hkept.ppsLast, hkept.valid1, hkept.ppsTheta⟩

theorem refppsEdge_counts {stamp p : Int} {s : State} (hrun : s.tim.running = true) (hlast : s.tim.ppsLast = some p)
    (hbad : s.tim.ppsBad < 2) (hlow : 999000000 ≤ stampNs (stamp - p)) (hhigh : stampNs (stamp - p) ≤ 1001000000) :
    ∃ t, exec (.refppsEdge stamp) s = .next t
      ∧ t.tim.ppsGood = s.tim.ppsGood + 1 ∧ t.tim.ppsBad = 0 ∧ t.tim.ppsLast = some stamp
      ∧ (2 ≤ s.tim.ppsGood → t.tim.valid1 = true) ∧ (s.tim.ppsGood < 2 → t.tim.valid1 = s.tim.valid1)
      ∧ ∃ (k : Int) (th : Rat), t.tim.ppsTheta = some th ∧ -500000000 ≤ th ∧ th < 500000000
          ∧ th = stampNs stamp - ((s.calEff 20 : Int) : Rat) - ((k * 1000000000 : Int) : Rat) := by
  obtain ⟨t, ht, hgood, hzero, hnow, hvalid, htheta⟩ := finish_ppsTaken stamp (s.tim.ppsGood + 1) s
  obtain ⟨hge, hlt⟩ := secondOffset_bounds (stampNs stamp - ((s.calEff 20 : Int) : Rat))
  refine ⟨t, ?_, hgood, hzero, hnow, ?third, ?early, _, _, htheta, hge, hlt, rfl⟩
  · rw [exec_refppsEdge stamp hrun, ppsEdge_inPlace hlast hbad hlow hhigh, ht]
  case third =>
    intro h
    have hthree : 3 ≤ s.tim.ppsGood + 1 := by omega
    rw [hvalid, decide_eq_true hthree, Bool.or_true]
  case early =>
    intro h
    have hfew : ¬ 3 ≤ s.tim.ppsGood + 1 := by omega
    rw [hvalid, decide_eq_false hfew, Bool.or_false]

theorem refppsEdge_startsRun {stamp : Int} {s : State} (hrun : s.tim.running = true) (hbad : 2 ≤ s.tim.ppsBad) :
    ∃ t, exec (.refppsEdge stamp) s = .next t
      ∧ t.tim.ppsGood = 1 ∧ t.tim.ppsBad = 0 ∧ t.tim.ppsLast = some stamp := by
  obtain ⟨t, ht, hgood, hzero, hnow, -⟩ := finish_ppsTaken stamp 1 s
  exact ⟨t, by rw [exec_refppsEdge stamp hrun, ppsEdge_startsRun hbad, ht], hgood, hzero, hnow⟩

/-! The validity of the sources and the limit of VIGIL (R410, R416, R417). -/

theorem exec_refValidityTimeout (src : RefSrc) (s : State) :
    exec (.refValidityTimeout src) s = finish (refLost (srcCode src) s) := rfl

section
variable {s : State} {u : Tim}

theorem refLost_refpps (hvalid : s.tim.valid1 = true) (hu : s.tim.elapsedTo (s.tim.ppsSeen + 1500000000) = some u) :
    refLost 1 s = timeSources (raiseM .timeRefLost 1
      { s with tim := { u with valid1 := false, ppsGood := 0, ppsTheta := none } }) := by
  simp only [refLost, hvalid, hu]

theorem refLost_manager (hvalid : s.tim.valid3 = true) (hu : s.tim.elapsedTo (s.tim.mgrSeen + 4000000000) = some u) :
    refLost 3 s = timeSources (raiseM .timeRefLost 3 { s with tim := { u with valid3 := false, mgrTheta := none } }) := by
  simp only [refLost, hvalid, hu]

theorem refLost_refpps_early (h : s.tim.elapsedTo (s.tim.ppsSeen + 1500000000) = none) : refLost 1 s = s := by
  cases hvalid : s.tim.valid1 with
  | false => simp only [refLost, hvalid]
  | true => simp only [refLost, hvalid, h]

theorem refLost_manager_early (h : s.tim.elapsedTo (s.tim.mgrSeen + 4000000000) = none) : refLost 3 s = s := by
  cases hvalid : s.tim.valid3 with
  | false => simp only [refLost, hvalid]
  | true => simp only [refLost, hvalid, h]

theorem refValidityTimeout_refpps (h1 : s.tim.valid1 = true) (h3 : s.tim.valid3 = false)
    (hpartner : s.partnerOk = false) (hlocked : s.tim.state = .locked)
    (hu : s.tim.elapsedTo (s.tim.ppsSeen + 1500000000) = some u) :
    ∃ t, exec (.refValidityTimeout .refpps) s = .next t ∧ t.tim.valid1 = false ∧ t.tim.source = 0
      ∧ t.tim.state = .vigil ∧ t.tim.vigilT = 0 ∧ t.tim.ns = u.ns := by
  obtain ⟨t, ht, htim⟩ := finish_tim (refLost 1 s)
  refine ⟨t, ht, ?_⟩
  rw [htim, refLost_refpps h1 hu]
  obtain ⟨n, f, e, rfl⟩ := Tim.advancedTo_of_elapsedTo hu
  exact ⟨(timeSources_keepsSamples _).valid1, timeSources_loses rfl h3 hpartner hlocked⟩

theorem refValidityTimeout_manager (h1 : s.tim.valid1 = false) (h3 : s.tim.valid3 = true)
    (hpartner : s.partnerOk = false) (hlocked : s.tim.state = .locked)
    (hu : s.tim.elapsedTo (s.tim.mgrSeen + 4000000000) = some u) :
    ∃ t, exec (.refValidityTimeout .manager) s = .next t ∧ t.tim.valid3 = false ∧ t.tim.source = 0
      ∧ t.tim.state = .vigil ∧ t.tim.vigilT = 0 ∧ t.tim.ns = u.ns := by
  obtain ⟨t, ht, htim⟩ := finish_tim (refLost 3 s)
  refine ⟨t, ht, ?_⟩
  rw [htim, refLost_manager h3 hu]
  obtain ⟨n, f, e, rfl⟩ := Tim.advancedTo_of_elapsedTo hu
  exact ⟨(timeSources_keepsSamples _).valid3, timeSources_loses h1 rfl hpartner hlocked⟩

theorem refValidityTimeout_early (hquiet : eventsDelivered s) :
    (s.tim.elapsedTo (s.tim.ppsSeen + 1500000000) = none → exec (.refValidityTimeout .refpps) s = .next s)
    ∧ (s.tim.elapsedTo (s.tim.mgrSeen + 4000000000) = none → exec (.refValidityTimeout .manager) s = .next s)
    ∧ exec (.refValidityTimeout .partner) s = .next s := by
  refine ⟨fun h => ?_, fun h => ?_, finish_quiet hquiet⟩
  · rw [exec_refValidityTimeout, srcCode, refLost_refpps_early h, finish_quiet hquiet]
  · rw [exec_refValidityTimeout, srcCode, refLost_manager_early h, finish_quiet hquiet]

end

theorem exec_vigilLimitExpired (s : State) : exec .vigilLimitExpired s = finish (vigilOver s) := rfl

section
variable {s : State} {e : Nat} (he : e = s.tim.vigilAt + max 1 s.tim.vigilLimit * nsPerSecond)
  (hvigil : s.tim.state = .vigil)
include he hvigil

theorem vigilLimitExpired_freeRuns (hrun : s.tim.running = true) (hcome : e ≤ max s.tim.ns s.tim.nextBoundary) :
    ∃ t, exec .vigilLimitExpired s = .next t ∧ t.tim.state = .freeRun ∧ t.tim.rate = s.tim.held
      ∧ t.tim.ns = max s.tim.ns e := by
  have hover : vigilOver s = enterFreeRun { s with tim := s.tim.reach e } := by
    simp only [vigilOver, ← he, hvigil, Tim.upTo_of_le hrun hcome]
  obtain ⟨t, ht, htim⟩ := finish_tim (vigilOver s)
  refine ⟨t, ht, ?_⟩
  rw [htim, hover]
  obtain ⟨n, f, e', hreach⟩ := s.tim.advancedTo_reach e
  have hheld : (s.tim.reach e).held = s.tim.held := by rw [hreach]
  exact ⟨rfl, hheld, s.tim.reach_ns e⟩

theorem vigilLimitExpired_early (hquiet : eventsDelivered s) (hfar : max s.tim.ns s.tim.nextBoundary < e) :
    exec .vigilLimitExpired s = .next s := by
  have hstay : vigilOver s = s := by
    simp only [vigilOver, ← he, hvigil, Tim.upTo_of_gt hfar]
  rw [exec_vigilLimitExpired, hstay, finish_quiet hquiet]

end

/-! The time service's registers (R410, R418, R423, R435). -/

theorem exec_timeSet (s : State) : exec .timeSet s = finish (timeSet s) := rfl
theorem exec_pulseStart (s : State) : exec .pulseStart s = finish (startPulse s) := rfl
theorem exec_timNowRead (s : State) : exec .timNowRead s =
    finish (emit (.readReply (if s.responds .tim then BitVec.ofNat 32 s.tim.ns else 0)) (timLatch s)) := rfl

section
variable {s : State} (hblk : s.responds .tim = true)
include hblk

theorem mgrSampleWrite_valid (v : Word) :
    ∃ t, exec (.mgrSampleWrite v) s = .next t ∧ t.tim.valid3 = true
      ∧ t.tim.mgrTheta = some ((signed 32 v.toNat : Int) : Rat) ∧ t.tim.mgrSeen = s.tim.elapsed
      ∧ t.tim.ns = s.tim.ns := by
  obtain ⟨t, ht, htim⟩ := finish_tim (mgrSample v s)
  refine ⟨t, ht, ?_⟩
  rw [htim, mgrSample, if_pos hblk]
  have hkept := timeSources_keepsSamples { s with tim := { s.tim with
    mgrTheta := some ((signed 32 v.toNat : Int) : Rat), valid3 := true, mgrSeen := s.tim.elapsed } }
  exact ⟨hkept.valid3, hkept.mgrTheta, hkept.mgrSeen, hkept.ns⟩

theorem timeSet_waits (hunset : s.tim.state = .unset) :
    timeSet s = { s with tim := { s.tim with setWait := true } } := by
  simp only [timeSet, hblk, hunset]
  rfl

theorem timeSet_refused (hset : s.tim.state ≠ .unset) : timeSet s = cfgReject 0 0x240038 s := by
  simp only [timeSet, hblk, if_neg hset]
  rfl

theorem startPulse_starts (hnew : s.tim.pulseStart = false) :
    startPulse s = { s with tim := { s.tim with
      pulseStart := true, pulseFirst := (s.tim.ns + 500000000 + 999999999) / nsPerSecond } } := by
  simp only [startPulse, hblk, hnew]
  rfl

theorem timNowRead_latches (hquiet : eventsDelivered s) : exec .timNowRead s = .next { s with
    tim := { s.tim with
      latchHi := BitVec.ofNat 32 (s.tim.ns / 2 ^ 32), latchFrac := BitVec.ofNat 16 (s.tim.sub / 2 ^ 16) },
    out := s.out ++ [.readReply (BitVec.ofNat 32 s.tim.ns)] } := by
  have hread : exec .timNowRead s = finish (emit (.readReply (BitVec.ofNat 32 s.tim.ns)) { s with tim := { s.tim with
      latchHi := BitVec.ofNat 32 (s.tim.ns / 2 ^ 32), latchFrac := BitVec.ofNat 16 (s.tim.sub / 2 ^ 16) } }) := by
    rw [exec_timNowRead, timLatch, if_pos hblk, if_pos hblk]
  exact hread.trans (finish_quiet hquiet)

end

/-! The pulse (R423 to R426). -/

theorem exec_tpulseRise (s : State) : exec .tpulseRise s = finish (pulseRise s) := rfl
theorem exec_tpulseFall (s : State) : exec .tpulseFall s = finish (pulseFall s) := rfl

/-- The pulse of whole second `k` is due: it is started, low, not over for this second, and its instant not missed. -/
def State.pulseDue (s : State) (k : Nat) : Prop :=
  s.tim.pulseStart = true ∧ (s.tim.pulseRunning = true ∨ s.tim.pulseFirst ≤ k) ∧ s.tim.pulseHigh = false
    ∧ s.tim.pulseDone ≠ some k ∧ s.tim.ns ≤ s.pulseAt k + 10

/-- The last rise lies less than 500 ms of elapsed time back (R425). -/
def Tim.pulseTooSoon (t : Tim) : Bool :=
  match t.pulseLast with
  | some e => decide (t.elapsed < e + 500000000)
  | none => false

theorem Tim.pulseTooSoon_of_near {t : Tim} {e : Nat} (hlast : t.pulseLast = some e) (hnear : t.elapsed < e + 500000000) :
    t.pulseTooSoon = true := by
  simp only [Tim.pulseTooSoon, hlast, decide_eq_true hnear]

theorem Tim.pulseTooSoon_of_far {t : Tim} (hfar : ∀ e, t.pulseLast = some e → e + 500000000 ≤ t.elapsed) :
    t.pulseTooSoon = false := by
  cases hlast : t.pulseLast with
  | none => simp only [Tim.pulseTooSoon, hlast]
  | some e => simp only [Tim.pulseTooSoon, hlast, decide_eq_false (Nat.not_lt.mpr (hfar e hlast))]

section
variable {s : State} {u : Tim}

theorem pulseRise_idle (h : s.tim.pulseStart = false ∨ s.tim.pulseDone = some s.pulseSecond) : pulseRise s = s := by
  refine if_pos ?_
  rcases h with hstart | hdone
  · simp only [hstart, Bool.not_false, Bool.true_or]
  · simp only [hdone, BEq.rfl, Bool.or_true, Bool.true_or]

/-- A pulse that is due at an instant that has come rises or, too soon after the last, is skipped. -/
theorem pulseRise_due (hdue : s.pulseDue s.pulseSecond) (hu : s.tim.upTo (s.pulseAt s.pulseSecond) = some u) :
    pulseRise s =
      if u.pulseTooSoon then raiseM .pulseSkipped 0 { s with tim := { u with pulseDone := some s.pulseSecond } }
      else emit (.tpulse true) { s with tim := { u with
        pulseHigh := true, pulseRunning := true, pulseLast := some u.elapsed, pulseDone := some s.pulseSecond,
        pulseWidthNow := clampWidth u.pulseWidth } } := by
  obtain ⟨hstart, hsecond, hlow, hdone, hintime⟩ := hdue
  have hbegun : (!s.tim.pulseRunning && decide (s.pulseSecond < s.tim.pulseFirst)) = false := by
    rwa [Bool.and_eq_false_iff, Bool.not_eq_false', decide_eq_false_iff_not, Nat.not_lt]
  have hopen : (!s.tim.pulseStart || (!s.tim.pulseRunning && decide (s.pulseSecond < s.tim.pulseFirst))
      || s.tim.pulseHigh || s.tim.pulseDone == some s.pulseSecond
      || decide (s.pulseAt s.pulseSecond + 10 < s.tim.ns)) = false := by
    rw [hstart, hbegun, hlow, beq_false_of_ne hdone, decide_eq_false (Nat.not_lt.mpr hintime)]
    rfl
  rw [pulseRise, hopen, hu]
  rfl

theorem pulseFall_low (h : s.tim.pulseHigh = false) : pulseFall s = s := by
  rw [pulseFall, h]
  rfl

section
variable {e : Nat} (he : e = s.tim.pulseLast.getD 0 + s.tim.pulseWidthNow * 1000) (hhigh : s.tim.pulseHigh = true)
include he hhigh

theorem pulseFall_falls (hu : s.tim.elapsedTo e = some u) :
    pulseFall s = emit (.tpulse false) { s with tim := { u with pulseHigh := false } } := by
  simp only [pulseFall, ← he, hhigh, hu]
  rfl

theorem pulseFall_early (hu : s.tim.elapsedTo e = none) : pulseFall s = s := by
  simp only [pulseFall, ← he, hhigh, hu]
  rfl

end

variable (hquiet : eventsDelivered s)
include hquiet

theorem tpulseRise_rises (hdue : s.pulseDue s.pulseSecond) (hu : s.tim.upTo (s.pulseAt s.pulseSecond) = some u)
    (hfar : ∀ e, s.tim.pulseLast = some e → e + 500000000 ≤ u.elapsed) :
    exec .tpulseRise s = .next { s with
      tim := { u with
        pulseHigh := true, pulseRunning := true, pulseLast := some u.elapsed, pulseDone := some s.pulseSecond,
        pulseWidthNow := clampWidth s.tim.pulseWidth },
      out := s.out ++ [.tpulse true] } := by
  have hrise := pulseRise_due hdue hu
  obtain ⟨n, f, e, rfl⟩ := Tim.advancedTo_of_upTo hu
  rw [Tim.pulseTooSoon_of_far hfar] at hrise
  rw [exec_tpulseRise, hrise]
  exact finish_quiet hquiet

theorem tpulseRise_skips {e : Nat} (hdue : s.pulseDue s.pulseSecond)
    (hu : s.tim.upTo (s.pulseAt s.pulseSecond) = some u) (hlast : s.tim.pulseLast = some e)
    (hnear : u.elapsed < e + 500000000) :
    exec .tpulseRise s =
      .next ({ s with tim := { u with pulseDone := some s.pulseSecond } }.told 0 .pulseSkipped 255 0) := by
  have hrise := pulseRise_due hdue hu
  have hsoon : u.pulseTooSoon = true := by
    obtain ⟨n, f, e', rfl⟩ := Tim.advancedTo_of_upTo hu
    exact Tim.pulseTooSoon_of_near hlast hnear
  rw [if_pos hsoon] at hrise
  have hset : eventsDelivered { s with tim := { u with pulseDone := some s.pulseSecond } } := hquiet
  rw [exec_tpulseRise, hrise]
  exact finish_raise hset _ _ _ _

end

/-- Settles O42: each command is judged by the state, then moves time, takes a sample or moves the pulse, and the sources
are judged on what it left.  That an instant beyond the next frame boundary changes nothing rests on log 7, that a pulse
rises once for each second on log 17, and the run that starts after two rejections and the validity in elapsed time on log 18. -/
theorem timeReferencesPulsesAndReads : Obligations.TimeReferencesPulsesAndReads := by
  refine ⟨⟨?edge, ?newRun, ?refppsOver, ?managerOver, ?notOver, ?vigilOver, ?sample, ?set⟩, fun s hquiet =>
    ⟨?read, ?start, ?rise, ?noRise, ?fall, ?noFall⟩⟩
  case edge =>
    intro stamp p s hquiet hrun hlast hbad
    refine ⟨refppsEdge_counts hrun hlast hbad, fun hout => ?_⟩
    rw [exec_refppsEdge stamp hrun, ppsEdge_outOfPlace hlast hbad hout]
    exact finish_quiet hquiet
  case newRun => exact fun stamp s => refppsEdge_startsRun
  case refppsOver => exact fun u s => refValidityTimeout_refpps
  case managerOver => exact fun u s => refValidityTimeout_manager
  case notOver => exact fun s => refValidityTimeout_early
  case vigilOver =>
    exact fun e s he hvigil => ⟨vigilLimitExpired_freeRuns he hvigil, vigilLimitExpired_early he hvigil⟩
  case sample => exact fun v s hblk => mgrSampleWrite_valid hblk v
  case set =>
    intro s hquiet hblk
    refine ⟨fun hunset => ?_, fun hset => ?_⟩
    · rw [exec_timeSet, timeSet_waits hblk hunset]
      exact finish_quiet hquiet
    · rw [exec_timeSet, timeSet_refused hblk hset]
      exact finish_raise hquiet _ _ _ _
  case read => exact fun hblk => timNowRead_latches hblk hquiet
  case start =>
    intro hblk hnew
    rw [exec_pulseStart, startPulse_starts hblk hnew]
    exact finish_quiet hquiet
  case rise =>
    rintro _ u rfl hstart hsecond hlow hdone hintime hu
    have hdue : s.pulseDue s.pulseSecond := ⟨hstart, hsecond, hlow, hdone, hintime⟩
    exact ⟨tpulseRise_rises hquiet hdue hu, fun e => tpulseRise_skips hquiet hdue hu⟩
  case noRise =>
    intro hidle
    rw [exec_tpulseRise, pulseRise_idle hidle, finish_quiet hquiet]
  case fall =>
    rintro _ rfl hhigh
    refine ⟨fun u hu => ?_, fun hnone => ?_⟩
    · rw [exec_tpulseFall, pulseFall_falls rfl hhigh hu]
      exact finish_quiet hquiet
    · rw [exec_tpulseFall, pulseFall_early rfl hhigh hnone, finish_quiet hquiet]
  case noFall =>
    intro hlow
    rw [exec_tpulseFall, pulseFall_low hlow, finish_quiet hquiet]

end Sys2Proof.Machine
end

section
/-! PROOFS. Shadows of class-F fields (R507, Table 16.5): where a read and a write of BAR0 go, then what each shadow
shows, then that a write to one stores nothing. -/

namespace Sys2Proof.Machine

/-! The blocks that have shadows, in BAR0 (Table 16.2). -/

section
variable {reg : Nat} (v : Word) (s : State)

theorem wordRead_bar0 {off : Nat} (haligned : off % 4 = 0) : wordRead 0 0 off s = bar0Read off s := by
  rw [wordRead, if_neg (not_not_intro haligned), if_pos rfl, if_pos rfl]

theorem bar0Read_cal (hreg : reg < 0x10000) : bar0Read (0x30000 + reg) s = calRead reg s := by
  simp (disch := omega) only [bar0Read, if_neg, if_pos, Nat.add_sub_cancel_left]
theorem bar0Read_ros (hreg : reg < 0x40000) : bar0Read (0x80000 + reg) s = rosRead reg s := by
  simp (disch := omega) only [bar0Read, if_neg, if_pos, Nat.add_sub_cancel_left]
theorem bar0Read_cox (hreg : reg < 0x40000) : bar0Read (0xC0000 + reg) s = coxRead reg s := by
  simp (disch := omega) only [bar0Read, if_neg, if_pos, Nat.add_sub_cancel_left]
theorem bar0Read_crw (hreg : reg < 0x40000) : bar0Read (0x100000 + reg) s = crwRead reg s := by
  simp (disch := omega) only [bar0Read, if_neg, if_pos, Nat.add_sub_cancel_left]
theorem bar0Read_epm (hreg : reg < 0x20000) : bar0Read (0x1E0000 + reg) s = epmRead reg s := by
  simp (disch := omega) only [bar0Read, if_neg, if_pos, Nat.add_sub_cancel_left]

theorem bar0Write_cal (hreg : reg < 0x10000) : bar0Write (0x30000 + reg) v s = calReg reg v s := by
  simp (disch := omega) only [bar0Write, if_neg, if_pos, Nat.add_sub_cancel_left]
theorem bar0Write_ros (hreg : reg < 0x40000) : bar0Write (0x80000 + reg) v s = rosReg reg v s := by
  simp (disch := omega) only [bar0Write, if_neg, if_pos, Nat.add_sub_cancel_left]
theorem bar0Write_cox (hreg : reg < 0x40000) : bar0Write (0xC0000 + reg) v s = coxReg reg v s := by
  simp (disch := omega) only [bar0Write, if_neg, if_pos, Nat.add_sub_cancel_left]
theorem bar0Write_crw (hreg : reg < 0x40000) : bar0Write (0x100000 + reg) v s = crwReg reg v s := by
  simp (disch := omega) only [bar0Write, if_neg, if_pos, Nat.add_sub_cancel_left]
theorem bar0Write_epm (hreg : reg < 0x20000) : bar0Write (0x1E0000 + reg) v s = epmReg reg v s := by
  simp (disch := omega) only [bar0Write, if_neg, if_pos, Nat.add_sub_cancel_left]

end

/-! The offsets of the indexed shadows (Table 16.5), each by the base of its block. -/

theorem calShadow_offset (k : Nat) : 0x38104 + 16 * k = 0x30000 + (0x8104 + 16 * k) := by omega
theorem coxPlanShadow_offset (n : Nat) : 0xC8100 + 0x20 * n = 0xC0000 + (0x8100 + 0x20 * n) := by omega
theorem shareShadow_offset (k : Nat) : 0x108200 + 8 * k = 0x100000 + (0x8200 + 8 * k) := by omega

/-! What each shadow shows. -/

theorem bit_mod_two (b : Bool) : bit b % 2 = bit b := by cases b <;> rfl

/-- The class-F bits of `EPM_CTX` (Table 11.9) as a word. -/
theorem epmCtxForce_eq (c : Nat) (s : State) : epmCtxForce c s = BitVec.ofNat 32 (bit (s.ctx c).epm.withhold.inForce
    + bit (s.ctx c).epm.stageWait.inForce * 2 + bit (s.ctx c).epm.repeats.inForce * 4) := by
  simp [epmCtxForce, packWord, bit_mod_two, Nat.add_assoc]

section
variable {k : Nat} {s : State}

theorem calRead_shadow (hblk : s.responds .cal = true) (hk : k < 21) :
    calRead (0x8104 + 16 * k) s = if 10 ≤ k then BitVec.ofInt 32 (Tab.get 0 s.cal.userForce k) else 0 := by
  have hcol : (0x8104 + 16 * k) % 16 = 4 := by omega
  have hitem : (0x8104 + 16 * k - 0x8100) / 16 = k := by omega
  by_cases hclassF : 10 ≤ k
  · simp (disch := omega) only [calRead, hblk, hcol, hitem, hclassF, if_neg, if_pos, if_true, if_false,
      Bool.not_true, Bool.false_eq_true]
    rfl
  · simp (disch := omega) only [calRead, hblk, hclassF, if_neg, if_false, Bool.not_true, Bool.false_eq_true]

theorem rosRead_shadow (hblk : s.responds .ros = true) :
    rosRead 0x8000 s = BitVec.ofNat 32 (s.ros.evLog2.inForce % 4) := by
  simp [rosRead, hblk, packWord]

theorem coxRead_shadow_cfg (hblk : s.responds .cox = true) :
    coxRead 0x8000 s = BitVec.ofNat 32 (max 1 s.cox.mgrWeight.inForce % 256) := by
  simp [coxRead, hblk, packWord]

theorem coxRead_shadow_plan (hblk : s.responds .cox = true) (hk : k < 8) :
    coxRead (0x8100 + 0x20 * k) s = BitVec.ofNat 32 (max 1 (s.trk k).urgentHold.inForce % 16 * 0x100000) := by
  have hfirst : (0x8100 + 0x20 * k) % 0x20 = 0 := by omega
  have htrunk : (0x8100 + 0x20 * k - 0x8100) / 0x20 = k := by omega
  simp (disch := omega) only [coxRead, hblk, hfirst, htrunk, if_neg, if_pos, if_true, if_false,
    Bool.not_true, Bool.false_eq_true]
  simp [packWord]

theorem crwRead_shadow (hblk : s.responds .crw = true) (hk : k < 64) :
    crwRead (0x8200 + 8 * k) s = shareRead k true s := by
  have hfirst : (0x8200 + 8 * k) % 8 = 0 := by omega
  have hentry : (0x8200 + 8 * k - 0x8200) / 8 = k := by omega
  simp (disch := omega) only [crwRead, hblk, hfirst, hentry, if_neg, if_pos, if_true, if_false,
    Bool.not_true, Bool.false_eq_true]

theorem shareRead_force_crew (hk : k ≠ 0) :
    shareRead k true s
      = BitVec.ofNat 32 ((s.crew k).share.inForce.1 % 2048 + max 1 (s.crew k).share.inForce.2 % 256 * 0x10000) := by
  simp [shareRead, hk, packWord]

/-- The manager's minimum is what the crews' sections of the image leave of 1024 (R246). -/
theorem shareRead_force_manager {im : Image} (him : s.img.applied = some im) :
    shareRead 0 true s
      = BitVec.ofNat 32 ((1024 - im.sumSec (·.bulkMin)) % 2048 + max 1 s.cox.mgrWeight.inForce % 256 * 0x10000) := by
  simp [shareRead, State.bulkMin, him, packWord]

theorem epmRead_shadow (hblk : s.responds .epm = true) : epmRead 0x8004 s = epmCtxForce (s.crew 0).epmSel s := by
  simp [epmRead, hblk]

theorem wordRead_window_shadow (hk : k ≠ 0) (hblk : s.responds .epm = true) (hrun : s.crewRuns k = true)
    (hused : (s.ctx (s.crew k).epmSel).used = true) (hown : (s.ctx (s.crew k).epmSel).owner = k) :
    wordRead k 0 0x8D04 s = epmCtxForce (s.crew k).epmSel s := by
  simp [wordRead, windowRead, hk, hblk, hrun, hused, hown]

end

/-! Writes: in a block with shadows every register that stores something lies below 0x8000, so a write from there on
goes past all of them; so does one to the shadow of a crew window. -/

section
variable {reg : Nat} (v : Word) (s : State) (hreg : 0x8000 ≤ reg)
include hreg

theorem calReg_upper : calReg reg v s = s := by
  simp (disch := omega) only [calReg, if_neg, ite_self]
theorem rosReg_upper : rosReg reg v s = s := by
  simp (disch := omega) only [rosReg, ite_self]
theorem coxReg_upper : coxReg reg v s = s := by
  simp (disch := omega) only [coxReg, if_neg, ite_self]
theorem crwReg_upper : crwReg reg v s = s := by
  simp (disch := omega) only [crwReg, if_neg, ite_self]
theorem epmReg_upper : epmReg reg v s = s := by
  simp (disch := omega) only [epmReg, ite_self]

end

theorem windowWrite_shadow (k : Nat) (v : Word) (s : State) : windowWrite k 0x8D04 v s = s := rfl

theorem wordWrite_bar0 (off : Nat) (v : Word) (s : State) : wordWrite 0 0 off v s = bar0Write off v s := rfl

theorem wordWrite_window {k : Nat} (hk : k ≠ 0) (off : Nat) (v : Word) (s : State) :
    wordWrite k 0 off v s = windowWrite k off v s := by
  rw [wordWrite, if_neg hk, if_pos rfl]

theorem exec_registerWrite (fn : Fin 64) (bar : Fin 3) (off : Nat) (words : List WriteWord) (s : State) :
    exec (.registerWrite fn bar off words) s = finish (regWrite fn bar off words s) := rfl

/-- A write of one whole word that stores nothing leaves the state as it was. -/
theorem exec_registerWrite_ignored {fn : Fin 64} {off : Nat} {v : Word} {s : State} (hquiet : eventsDelivered s)
    (hnone : wordWrite fn 0 off v s = s) : exec (.registerWrite fn 0 off [⟨v, 0xF#4, false⟩]) s = .next s := by
  have hwrite : regWrite fn 0 off [⟨v, 0xF#4, false⟩] s = s := by
    simp [regWrite, wordWrites, hnone]
  rw [exec_registerWrite, Fin.val_zero, hwrite, finish_quiet hquiet]

/-- The offsets of the shadows in BAR0 (Table 16.5). -/
def Bar0Shadow (off : Nat) : Prop :=
  off ∈ [0x88000, 0xC8000, 0x1E8004] ∨ (∃ k, k < 21 ∧ off = 0x38104 + 16 * k)
    ∨ (∃ n, n < 8 ∧ off = 0xC8100 + 0x20 * n) ∨ (∃ k, k < 64 ∧ off = 0x108200 + 8 * k)

theorem bar0Write_shadow {off : Nat} (hoff : Bar0Shadow off) (v : Word) (s : State) : bar0Write off v s = s := by
  obtain hsingle | ⟨k, hk, rfl⟩ | ⟨n, hn, rfl⟩ | ⟨k, hk, rfl⟩ := hoff
  · simp only [List.mem_cons, List.not_mem_nil, or_false] at hsingle
    obtain rfl | rfl | rfl := hsingle
    · exact (bar0Write_ros (reg := 0x8000) v s (by omega)).trans (rosReg_upper v s (by omega))
    · exact (bar0Write_cox (reg := 0x8000) v s (by omega)).trans (coxReg_upper v s (by omega))
    · exact (bar0Write_epm (reg := 0x8004) v s (by omega)).trans (epmReg_upper v s (by omega))
  · rw [calShadow_offset k, bar0Write_cal v s (by omega)]
    exact calReg_upper v s (by omega)
  · rw [coxPlanShadow_offset n, bar0Write_cox v s (by omega)]
    exact coxReg_upper v s (by omega)
  · rw [shareShadow_offset k, bar0Write_crw v s (by omega)]
    exact crwReg_upper v s (by omega)

/-- Settles O60: a shadow's offset leads to its block, which shows the values in force and has nothing there to write. -/
theorem shadowsShowTheValuesInForce : Obligations.ShadowsShowTheValuesInForce := by
  refine ⟨fun s => ⟨?cal, ?ros, ?cox, ?share, ?shareManager, ?epm, ?window⟩, ?writeBar0, ?writeWindow⟩
  case cal =>
    intro hblk k hk
    rw [wordRead_bar0 s (by omega), calShadow_offset k, bar0Read_cal s (by omega),
      calRead_shadow hblk hk]
  case ros =>
    intro hblk
    rw [wordRead_bar0 s (by omega), bar0Read_ros (reg := 0x8000) s (by omega), rosRead_shadow hblk]
  case cox =>
    intro hblk
    refine ⟨?_, fun n hn => ?_⟩
    · rw [wordRead_bar0 s (by omega), bar0Read_cox (reg := 0x8000) s (by omega), coxRead_shadow_cfg hblk]
    · rw [wordRead_bar0 s (by omega), coxPlanShadow_offset n, bar0Read_cox s (by omega),
        coxRead_shadow_plan hblk hn]
  case share =>
    intro hblk k hpos hk
    rw [wordRead_bar0 s (by omega), shareShadow_offset k, bar0Read_crw s (by omega),
      crwRead_shadow hblk hk, shareRead_force_crew (by omega)]
  case shareManager =>
    intro hblk im him
    rw [wordRead_bar0 s (by omega), bar0Read_crw (reg := 0x8200) s (by omega), crwRead_shadow (k := 0) hblk (by omega),
      shareRead_force_manager him]
  case epm =>
    rintro hblk _ rfl
    rw [wordRead_bar0 s (by omega), bar0Read_epm (reg := 0x8004) s (by omega), epmRead_shadow hblk, epmCtxForce_eq]
  case window =>
    rintro hblk k _ hpos hrun hused hown rfl
    rw [wordRead_window_shadow (by omega) hblk hrun hused hown, epmCtxForce_eq]
  case writeBar0 =>
    intro off v s hquiet hoff
    exact exec_registerWrite_ignored hquiet ((wordWrite_bar0 off v s).trans (bar0Write_shadow hoff v s))
  case writeWindow =>
    intro k v s hquiet hk
    have hvf : (k : Nat) ≠ 0 := Fin.val_ne_of_ne hk
    exact exec_registerWrite_ignored hquiet ((wordWrite_window hvf _ v s).trans (windowWrite_shadow k v s))

end Sys2Proof.Machine
end
